-- ==== Sys2Proof/Word.lean ====
section
/-! DEFINITION. The widths of the machine's data (00_scope.md R6, R9, R10). -/

namespace Sys2Proof

/-- The Word: 8 ordered bits, index 0 the least significant (R9, R170). -/
abbrev Word := BitVec 8

/-- A segment register: a 2-bit page number (R27). -/
abbrev Seg := BitVec 2

/-- A general register number 0..7 (R21). -/
abbrev RegNum := BitVec 3

/-- A bit index 0..7 inside a Word (R73, R112). -/
abbrev BitIdx := BitVec 3

/-- A flat memory address 0..1023, the width of the address latch (R29, R33). -/
abbrev Addr := BitVec 10

end Sys2Proof
end

