-- ==== Sys2Proof/Syntax.lean ====
section
/-! DEFINITION. The instructions: one constructor per row of spec/opcode_table.json (30_encoding.md R106 to R119). -/

namespace Sys2Proof

/-- The mode field `m` of format RG, `CR0[4:3]` (R107, R212). -/
inductive Mode where
  /-- `00`, `Rn`: the register itself (R201). -/
  | direct
  /-- `01`, `@Rn`: the cell the register points to (R202). -/
  | indirect
  /-- `10`, `@Rn+`: as `@Rn`, the register incremented after the last access (R203). -/
  | postInc
  /-- `11`, `@-Rn`: the register decremented first, then as `@Rn` (R204). -/
  | preDec
  deriving DecidableEq, Repr

/-- An instruction of the machine. Operands are typed by the width of their field, so every value of this type is an
instruction the encoding can express. `m` and `r` are the mode and register of format RG, `a` an offset in the data
segment, `k` a constant, `t` a target offset, `n` a vector index, `b` a bit index, `p` a port address. -/
inductive Instr where
  /-- MOV: Register operand (R107), R220. -/
  | movRg (m : Mode) (r : RegNum)
  /-- PUSH: Register operand (R107), R221. -/
  | pushRg (m : Mode) (r : RegNum)
  /-- POP: Register operand (R107), R238. -/
  | popRg (m : Mode) (r : RegNum)
  /-- OUTX: Register operand (R107), R222. -/
  | outxRg (m : Mode) (r : RegNum)
  /-- NOT: Register operand (R107), R223. -/
  | notRg (m : Mode) (r : RegNum)
  /-- ADD: Register operand (R107), R224. -/
  | addRg (m : Mode) (r : RegNum)
  /-- SUB: Register operand (R107), R225. -/
  | subRg (m : Mode) (r : RegNum)
  /-- MUL: Register operand (R107), R226. -/
  | mulRg (m : Mode) (r : RegNum)
  /-- DIV: Register operand (R107), R227. -/
  | divRg (m : Mode) (r : RegNum)
  /-- AND: Register operand (R107), R228. -/
  | andRg (m : Mode) (r : RegNum)
  /-- OR: Register operand (R107), R229. -/
  | orRg (m : Mode) (r : RegNum)
  /-- XOR: Register operand (R107), R230. -/
  | xorRg (m : Mode) (r : RegNum)
  /-- CMP: Register operand (R107), R231. -/
  | cmpRg (m : Mode) (r : RegNum)
  /-- RD: Register operand (R107), R232. -/
  | rdRg (m : Mode) (r : RegNum)
  /-- INC: Register operand (R107), R233. -/
  | incRg (m : Mode) (r : RegNum)
  /-- DEC: Register operand (R107), R234. -/
  | decRg (m : Mode) (r : RegNum)
  /-- ADC: Register operand (R107), R235. -/
  | adcRg (m : Mode) (r : RegNum)
  /-- SUBB: Register operand (R107), R236. -/
  | subbRg (m : Mode) (r : RegNum)
  /-- XCH: Register operand (R107), R237. -/
  | xchRg (m : Mode) (r : RegNum)
  /-- MOV: Memory direct (R108), R220. -/
  | movMd (a : Word)
  /-- PUSH: Memory direct (R108), R221. -/
  | pushMd (a : Word)
  /-- OUTX: Memory direct (R108), R222. -/
  | outxMd (a : Word)
  /-- NOT: Memory direct (R108), R223. -/
  | notMd (a : Word)
  /-- ADD: Memory direct (R108), R224. -/
  | addMd (a : Word)
  /-- SUB: Memory direct (R108), R225. -/
  | subMd (a : Word)
  /-- MUL: Memory direct (R108), R226. -/
  | mulMd (a : Word)
  /-- DIV: Memory direct (R108), R227. -/
  | divMd (a : Word)
  /-- AND: Memory direct (R108), R228. -/
  | andMd (a : Word)
  /-- OR: Memory direct (R108), R229. -/
  | orMd (a : Word)
  /-- XOR: Memory direct (R108), R230. -/
  | xorMd (a : Word)
  /-- CMP: Memory direct (R108), R231. -/
  | cmpMd (a : Word)
  /-- RD: Memory direct (R108), R232. -/
  | rdMd (a : Word)
  /-- INC: Memory direct (R108), R233. -/
  | incMd (a : Word)
  /-- DEC: Memory direct (R108), R234. -/
  | decMd (a : Word)
  /-- ADC: Memory direct (R108), R235. -/
  | adcMd (a : Word)
  /-- PUSH: Immediate (R108), R221. -/
  | pushIm (k : Word)
  /-- OUTX: Immediate (R108), R222. -/
  | outxIm (k : Word)
  /-- ADD: Immediate (R108), R224. -/
  | addIm (k : Word)
  /-- SUB: Immediate (R108), R225. -/
  | subIm (k : Word)
  /-- MUL: Immediate (R108), R226. -/
  | mulIm (k : Word)
  /-- DIV: Immediate (R108), R227. -/
  | divIm (k : Word)
  /-- AND: Immediate (R108), R228. -/
  | andIm (k : Word)
  /-- OR: Immediate (R108), R229. -/
  | orIm (k : Word)
  /-- XOR: Immediate (R108), R230. -/
  | xorIm (k : Word)
  /-- CMP: Immediate (R108), R231. -/
  | cmpIm (k : Word)
  /-- RD: Immediate (R108), R232. -/
  | rdIm (k : Word)
  /-- ADC: Immediate (R108), R235. -/
  | adcIm (k : Word)
  /-- JMP: Control transfer (R109), R250. -/
  | jmp (t : Word)
  /-- CALL: Control transfer (R109), R251. -/
  | call (t : Word)
  /-- INT: Control transfer (R109), R252. -/
  | int (n : Word)
  /-- JZ: Control transfer (R109), R253. -/
  | jz (t : Word)
  /-- JNZ: Control transfer (R109), R254. -/
  | jnz (t : Word)
  /-- JC: Control transfer (R109), R255. -/
  | jc (t : Word)
  /-- JNC: Control transfer (R109), R256. -/
  | jnc (t : Word)
  /-- JN: Control transfer (R109), R257. -/
  | jn (t : Word)
  /-- JNN: Control transfer (R109), R258. -/
  | jnn (t : Word)
  /-- JO: Control transfer (R109), R259. -/
  | jo (t : Word)
  /-- JNO: Control transfer (R109), R260. -/
  | jno (t : Word)
  /-- DJRNZ: Decrement and branch (R110), R262. -/
  | djrnz (r : RegNum) (t : Word)
  /-- NOP: Non-addressed (R111), R281. -/
  | nop
  /-- RET: Non-addressed (R111), R282. -/
  | ret
  /-- IRET: Non-addressed (R111), R283. -/
  | iret
  /-- EI: Non-addressed (R111), R284. -/
  | ei
  /-- DI: Non-addressed (R111), R296. -/
  | di
  /-- RL: Non-addressed (R111), R285. -/
  | rl
  /-- RR: Non-addressed (R111), R286. -/
  | rr
  /-- RLC: Non-addressed (R111), R287. -/
  | rlc
  /-- RRC: Non-addressed (R111), R288. -/
  | rrc
  /-- HLT: Non-addressed (R111), R289. -/
  | hlt
  /-- DAA: Non-addressed (R111), R290. -/
  | daa
  /-- DSA: Non-addressed (R111), R291. -/
  | dsa
  /-- LDF: Non-addressed (R111), R292. -/
  | ldf
  /-- STF: Non-addressed (R111), R293. -/
  | stf
  /-- INP: Non-addressed (R111), R294. -/
  | inp
  /-- OUTP: Non-addressed (R111), R295. -/
  | outp
  /-- CLRB: Bit on memory (R112), R311. -/
  | clrb (b : BitIdx) (a : Word)
  /-- SETB: Bit on memory (R112), R310. -/
  | setb (b : BitIdx) (a : Word)
  /-- SKBC: Bit on memory (R112), R313. -/
  | skbc (b : BitIdx) (a : Word)
  /-- SKBS: Bit on memory (R112), R312. -/
  | skbs (b : BitIdx) (a : Word)
  /-- PCLRB: Bit on port (R112), R315. -/
  | pclrb (b : BitIdx) (p : Word)
  /-- PSETB: Bit on port (R112), R314. -/
  | psetb (b : BitIdx) (p : Word)
  /-- PSKBC: Bit on port (R112), R317. -/
  | pskbc (b : BitIdx) (p : Word)
  /-- PSKBS: Bit on port (R112), R316. -/
  | pskbs (b : BitIdx) (p : Word)
  /-- IN: Port I/O (R113), R318. -/
  | inPort (p : Word)
  /-- OUT: Port I/O (R113), R319. -/
  | outPort (p : Word)
  /-- The implicit halt: the word `0x0000`, not a decoded instruction (R104). -/
  | implicitHalt
  deriving DecidableEq, Repr

end Sys2Proof
end

