-- ==== Sys2Proof/WellFormed.lean ====
section
/-! DEFINITION. Which instruction words are well formed, read off CR1 and CR0 without the decoder: the word is one the
opcode map gives a meaning (R114 to R119, R122), and its ignored bits are 0, as an assembler writes them (R122).
A term of `Instr` needs no check: each operand has exactly the width of its field. -/

namespace Sys2Proof

/-- The unrecognised encodings, in the order R122 lists them. -/
def unrecognised (cr1 cr0 : Word) : Bool :=
  (decide (0x01#8 ≤ cr1 ∧ cr1 ≤ 0x0F#8) && decide (cr0 = 0x00#8))
  || (decide (cr1 ≤ 0x0F#8) && decide (0x11#8 ≤ cr0))
  || decide (0x28#8 ≤ cr1 ∧ cr1 ≤ 0x3F#8)
  || decide (0x43#8 ≤ cr1 ∧ cr1 ≤ 0x4F#8)
  || decide (cr1 = 0x70#8) || decide (cr1 = 0x73#8) || decide (cr1 = 0x7D#8) || decide (cr1 = 0x7E#8)
  || decide (0xC2#8 ≤ cr1 ∧ cr1 ≤ 0xCF#8)
  || decide (0xD0#8 ≤ cr1 ∧ cr1 ≤ 0xEF#8)
  || decide (0xF2#8 ≤ cr1)

/-- CR1 selects the register-operand class (R114). -/
def inRegisterClass (cr1 : Word) : Bool :=
  decide (0x50#8 ≤ cr1 ∧ cr1 ≤ 0x5F#8) || decide (cr1 = 0xF0#8) || decide (cr1 = 0xF1#8)

/-- Format RG: `CR0[6:5]` is 0, and `CR0[7]` is 0 outside slot 1, where it is the direction (R107, R122). -/
def rgIgnoredBitsClear (cr1 cr0 : Word) : Bool :=
  !inRegisterClass cr1
    || (decide (cr0 &&& 0x60#8 = 0) && (decide (cr1 = 0x51#8) || decide (cr0 &&& 0x80#8 = 0)))

/-- Format DJ: `CR1[3]` is 0 (R110, R122). -/
def djIgnoredBitClear (cr1 : Word) : Bool :=
  !decide (0x10#8 ≤ cr1 ∧ cr1 ≤ 0x1F#8) || decide (cr1 &&& 0x08#8 = 0)

/-- Format NA: `CR1[3:0]` is 0 (R111, R122). -/
def naIgnoredBitsClear (cr1 : Word) : Bool :=
  !decide (cr1 ≤ 0x0F#8) || decide (cr1 = 0x00#8)

/-- A well-formed instruction word: recognised, and its ignored bits clear. -/
def wellFormedWord (cr1 cr0 : Word) : Bool :=
  !unrecognised cr1 cr0 && rgIgnoredBitsClear cr1 cr0 && djIgnoredBitClear cr1 && naIgnoredBitsClear cr1

end Sys2Proof
end

