-- ==== Sys2Proof/Decode.lean ====
section
/-! DEFINITION. The decoder, total on any two words and rejecting by name, and after it the encoder, both from the
encoding tables of 30_encoding.md (R107 to R119) and spec/opcode_table.json. The numbers are the spec's decisions (log 17);
ignored bits are ignored (log 14). -/

namespace Sys2Proof

/-- Why a word is no instruction (the groups of R122). Every one of them is an unrecognised encoding: the tick runs no
handler and sets UNREC (R121). -/
inductive DecodeError where
  /-- CR1 in `0x01..0x0F` with CR0 = `0x00`. -/
  | nonAddressedZero
  /-- CR1 in `0x00..0x0F` with CR0 in `0x11..0xFF`. -/
  | nonAddressedNumber
  /-- CR1 in `0x28..0x3F`. -/
  | conditionNumber
  /-- CR1 in `0x43..0x4F`. -/
  | controlNumber
  /-- CR1 one of `0x70`, `0x73`, `0x7D`, `0x7E`: the instruction writes its operand and has no immediate form (R115). -/
  | noImmediateForm
  /-- CR1 in `0xC2..0xCF`. -/
  | portNumber
  /-- CR1 in `0xD0..0xEF`: in no class. -/
  | noClass
  /-- CR1 in `0xF2..0xFF`: in no class. -/
  | registerClassNumber
  deriving DecidableEq, Repr

/-! ## Fields -/

/-- The mode of `CR0[4:3]` (R107). -/
def Mode.ofBits (m : BitVec 2) : Mode :=
  match m.toNat with
  | 0 => .direct
  | 1 => .indirect
  | 2 => .postInc
  | _ => .preDec

/-- `CR0[4:3]` of a mode (R107). -/
def Mode.bits : Mode → BitVec 2
  | .direct => 0b00#2
  | .indirect => 0b01#2
  | .postInc => 0b10#2
  | .preDec => 0b11#2

/-- The mode field of format RG, `CR0[4:3]`. -/
def modeField (cr0 : Word) : Mode := Mode.ofBits (cr0.extractLsb' 3 2)

/-- The three low bits of a word: the register number of format RG (`CR0[2:0]`) and of DJ (`CR1[2:0]`), the bit index
of BM and BP (`CR1[2:0]`) (R107, R110, R112). -/
def lowField (w : Word) : BitVec 3 := w.extractLsb' 0 3

/-- The low nibble of CR1: the slot of the ALU/move classes, the operation of the control and port classes
(R107 to R109, R113). -/
def slotField (cr1 : Word) : Nat := (cr1.extractLsb' 0 4).toNat

/-! ## Decoding -/

/-- Class `0000xxxx`: the opcode is the whole of CR0 and `CR1[3:0]` takes no part (R111, R117, R280); the all-zero word
is the implicit halt (R104). -/
def decodeNonAddressed (cr1 cr0 : Word) : Except DecodeError Instr :=
  match cr0.toNat with
  | 0x00 => if cr1 = 0 then .ok .implicitHalt else .error .nonAddressedZero
  | 0x01 => .ok .nop
  | 0x02 => .ok .ret
  | 0x03 => .ok .iret
  | 0x04 => .ok .ei
  | 0x05 => .ok .di
  | 0x06 => .ok .rl
  | 0x07 => .ok .rr
  | 0x08 => .ok .rlc
  | 0x09 => .ok .rrc
  | 0x0A => .ok .hlt
  | 0x0B => .ok .daa
  | 0x0C => .ok .dsa
  | 0x0D => .ok .ldf
  | 0x0E => .ok .stf
  | 0x0F => .ok .inp
  | 0x10 => .ok .outp
  | _ => .error .nonAddressedNumber

/-- Class `001xxxxx`: with `CR1[4] = 0`, `CR1[3] = 0` and `CR1[2:0]` the condition (R109, R116). -/
def decodeConditional (cr1 cr0 : Word) : Except DecodeError Instr :=
  match slotField cr1 with
  | 0x0 => .ok (.jz cr0)
  | 0x1 => .ok (.jnz cr0)
  | 0x2 => .ok (.jc cr0)
  | 0x3 => .ok (.jnc cr0)
  | 0x4 => .ok (.jn cr0)
  | 0x5 => .ok (.jnn cr0)
  | 0x6 => .ok (.jo cr0)
  | 0x7 => .ok (.jno cr0)
  | _ => .error .conditionNumber

/-- Class `0100xxxx` (R109, R116). -/
def decodeControl (cr1 cr0 : Word) : Except DecodeError Instr :=
  match slotField cr1 with
  | 0x0 => .ok (.jmp cr0)
  | 0x1 => .ok (.call cr0)
  | 0x2 => .ok (.int cr0)
  | _ => .error .controlNumber

/-- Register-operand class, CR1 = `0x50..0x5F` (R107, R115): slot 1 is PUSH or POP by `CR0[7]`. -/
def decodeRegister (cr1 cr0 : Word) : Except DecodeError Instr :=
  let m := modeField cr0
  let r := lowField cr0
  match slotField cr1 with
  | 0x0 => .ok (.movRg m r)
  | 0x1 => .ok (if cr0.getLsbD 7 then .popRg m r else .pushRg m r)
  | 0x2 => .ok (.outxRg m r)
  | 0x3 => .ok (.notRg m r)
  | 0x4 => .ok (.addRg m r)
  | 0x5 => .ok (.subRg m r)
  | 0x6 => .ok (.mulRg m r)
  | 0x7 => .ok (.divRg m r)
  | 0x8 => .ok (.andRg m r)
  | 0x9 => .ok (.orRg m r)
  | 0xA => .ok (.xorRg m r)
  | 0xB => .ok (.cmpRg m r)
  | 0xC => .ok (.rdRg m r)
  | 0xD => .ok (.incRg m r)
  | 0xE => .ok (.decRg m r)
  | _ => .ok (.adcRg m r)

/-- Memory-operand class with `CR1[4] = 0`, CR1 = `0x60..0x6F` (R108, R115). -/
def decodeMemoryDirect (cr1 cr0 : Word) : Except DecodeError Instr :=
  match slotField cr1 with
  | 0x0 => .ok (.movMd cr0)
  | 0x1 => .ok (.pushMd cr0)
  | 0x2 => .ok (.outxMd cr0)
  | 0x3 => .ok (.notMd cr0)
  | 0x4 => .ok (.addMd cr0)
  | 0x5 => .ok (.subMd cr0)
  | 0x6 => .ok (.mulMd cr0)
  | 0x7 => .ok (.divMd cr0)
  | 0x8 => .ok (.andMd cr0)
  | 0x9 => .ok (.orMd cr0)
  | 0xA => .ok (.xorMd cr0)
  | 0xB => .ok (.cmpMd cr0)
  | 0xC => .ok (.rdMd cr0)
  | 0xD => .ok (.incMd cr0)
  | 0xE => .ok (.decMd cr0)
  | _ => .ok (.adcMd cr0)

/-- Memory-operand class with `CR1[4] = 1`, CR1 = `0x70..0x7F` (R108, R115): the slots that write their operand have no
immediate form. -/
def decodeImmediate (cr1 cr0 : Word) : Except DecodeError Instr :=
  match slotField cr1 with
  | 0x1 => .ok (.pushIm cr0)
  | 0x2 => .ok (.outxIm cr0)
  | 0x4 => .ok (.addIm cr0)
  | 0x5 => .ok (.subIm cr0)
  | 0x6 => .ok (.mulIm cr0)
  | 0x7 => .ok (.divIm cr0)
  | 0x8 => .ok (.andIm cr0)
  | 0x9 => .ok (.orIm cr0)
  | 0xA => .ok (.xorIm cr0)
  | 0xB => .ok (.cmpIm cr0)
  | 0xC => .ok (.rdIm cr0)
  | 0xF => .ok (.adcIm cr0)
  | _ => .error .noImmediateForm

/-- Classes `1000xxxx` to `1011xxxx`: `CR1[5:3]` selects space, write or test, and value; `CR1[2:0]` is the bit
(R112, R118). None of them is unrecognised. -/
def decodeBit (cr1 cr0 : Word) : Except DecodeError Instr :=
  let b := lowField cr1
  match (cr1.extractLsb' 3 3).toNat with
  | 0 => .ok (.clrb b cr0)
  | 1 => .ok (.setb b cr0)
  | 2 => .ok (.skbc b cr0)
  | 3 => .ok (.skbs b cr0)
  | 4 => .ok (.pclrb b cr0)
  | 5 => .ok (.psetb b cr0)
  | 6 => .ok (.pskbc b cr0)
  | _ => .ok (.pskbs b cr0)

/-- Class `1100xxxx` (R113, R119). -/
def decodePort (cr1 cr0 : Word) : Except DecodeError Instr :=
  match slotField cr1 with
  | 0x0 => .ok (.inPort cr0)
  | 0x1 => .ok (.outPort cr0)
  | _ => .error .portNumber

/-- CR1 = `0xF0..0xFF`: the two remaining codes of the register-operand class (R114, R115). -/
def decodeHighRegister (cr1 cr0 : Word) : Except DecodeError Instr :=
  match slotField cr1 with
  | 0x0 => .ok (.subbRg (modeField cr0) (lowField cr0))
  | 0x1 => .ok (.xchRg (modeField cr0) (lowField cr0))
  | _ => .error .registerClassNumber

/-- The decoder: CR1 selects exactly one class by its high bits, and the rest of CR1, and CR0 in the non-addressed class,
select the instruction (R102, R114). It reads nothing but the two words. -/
def decode (cr1 cr0 : Word) : Except DecodeError Instr :=
  match (cr1.extractLsb' 4 4).toNat with
  | 0x0 => decodeNonAddressed cr1 cr0
  | 0x1 => .ok (.djrnz (lowField cr1) cr0)
  | 0x2 => decodeConditional cr1 cr0
  | 0x3 => .error .conditionNumber
  | 0x4 => decodeControl cr1 cr0
  | 0x5 => decodeRegister cr1 cr0
  | 0x6 => decodeMemoryDirect cr1 cr0
  | 0x7 => decodeImmediate cr1 cr0
  | 0x8 => decodeBit cr1 cr0
  | 0x9 => decodeBit cr1 cr0
  | 0xA => decodeBit cr1 cr0
  | 0xB => decodeBit cr1 cr0
  | 0xC => decodePort cr1 cr0
  | 0xD => .error .noClass
  | 0xE => .error .noClass
  | _ => decodeHighRegister cr1 cr0

/-- The instruction the decoder reads from the bits `w` of an opcode-table row: bit 0 is `CR0[0]`, bit 15 is `CR1[7]`,
and every bit from `nbits` up is 0 (R65, R106). CR0 is the word at the lower address, CR1 the next. -/
def decodeTableWord (nbits w : Nat) : Option Instr :=
  let bits := w % 2 ^ nbits
  match decode (BitVec.ofNat 8 (bits / 256)) (BitVec.ofNat 8 bits) with
  | .ok i => some i
  | .error _ => none

/-! ## Encoding -/

/-- CR0 of format RG: direction `d`, two zero bits, mode, register (R107, R122). -/
def rgWord (d : BitVec 1) (m : Mode) (r : RegNum) : Word := d ++ 0b00#2 ++ m.bits ++ r

/-- CR1 of format DJ: `0001`, a zero bit, the register (R110, R122). -/
def djWord (r : RegNum) : Word := 0b0001#4 ++ 0b0#1 ++ r

/-- CR1 of formats BM and BP: the five selecting bits and the bit index (R112, R118). -/
def bitWord (op : BitVec 5) (b : BitIdx) : Word := op ++ b

/-- The two words of an instruction, as the pair (CR1, CR0), ignored bits 0 (R106, R122). -/
def encode : Instr → Word × Word
  | .movRg m r => (0x50, rgWord 0 m r)
  | .pushRg m r => (0x51, rgWord 0 m r)
  | .popRg m r => (0x51, rgWord 1 m r)
  | .outxRg m r => (0x52, rgWord 0 m r)
  | .notRg m r => (0x53, rgWord 0 m r)
  | .addRg m r => (0x54, rgWord 0 m r)
  | .subRg m r => (0x55, rgWord 0 m r)
  | .mulRg m r => (0x56, rgWord 0 m r)
  | .divRg m r => (0x57, rgWord 0 m r)
  | .andRg m r => (0x58, rgWord 0 m r)
  | .orRg m r => (0x59, rgWord 0 m r)
  | .xorRg m r => (0x5A, rgWord 0 m r)
  | .cmpRg m r => (0x5B, rgWord 0 m r)
  | .rdRg m r => (0x5C, rgWord 0 m r)
  | .incRg m r => (0x5D, rgWord 0 m r)
  | .decRg m r => (0x5E, rgWord 0 m r)
  | .adcRg m r => (0x5F, rgWord 0 m r)
  | .subbRg m r => (0xF0, rgWord 0 m r)
  | .xchRg m r => (0xF1, rgWord 0 m r)
  | .movMd a => (0x60, a)
  | .pushMd a => (0x61, a)
  | .outxMd a => (0x62, a)
  | .notMd a => (0x63, a)
  | .addMd a => (0x64, a)
  | .subMd a => (0x65, a)
  | .mulMd a => (0x66, a)
  | .divMd a => (0x67, a)
  | .andMd a => (0x68, a)
  | .orMd a => (0x69, a)
  | .xorMd a => (0x6A, a)
  | .cmpMd a => (0x6B, a)
  | .rdMd a => (0x6C, a)
  | .incMd a => (0x6D, a)
  | .decMd a => (0x6E, a)
  | .adcMd a => (0x6F, a)
  | .pushIm k => (0x71, k)
  | .outxIm k => (0x72, k)
  | .addIm k => (0x74, k)
  | .subIm k => (0x75, k)
  | .mulIm k => (0x76, k)
  | .divIm k => (0x77, k)
  | .andIm k => (0x78, k)
  | .orIm k => (0x79, k)
  | .xorIm k => (0x7A, k)
  | .cmpIm k => (0x7B, k)
  | .rdIm k => (0x7C, k)
  | .adcIm k => (0x7F, k)
  | .jmp t => (0x40, t)
  | .call t => (0x41, t)
  | .int n => (0x42, n)
  | .jz t => (0x20, t)
  | .jnz t => (0x21, t)
  | .jc t => (0x22, t)
  | .jnc t => (0x23, t)
  | .jn t => (0x24, t)
  | .jnn t => (0x25, t)
  | .jo t => (0x26, t)
  | .jno t => (0x27, t)
  | .djrnz r t => (djWord r, t)
  | .nop => (0x00, 0x01)
  | .ret => (0x00, 0x02)
  | .iret => (0x00, 0x03)
  | .ei => (0x00, 0x04)
  | .di => (0x00, 0x05)
  | .rl => (0x00, 0x06)
  | .rr => (0x00, 0x07)
  | .rlc => (0x00, 0x08)
  | .rrc => (0x00, 0x09)
  | .hlt => (0x00, 0x0A)
  | .daa => (0x00, 0x0B)
  | .dsa => (0x00, 0x0C)
  | .ldf => (0x00, 0x0D)
  | .stf => (0x00, 0x0E)
  | .inp => (0x00, 0x0F)
  | .outp => (0x00, 0x10)
  | .clrb b a => (bitWord 0b10000 b, a)
  | .setb b a => (bitWord 0b10001 b, a)
  | .skbc b a => (bitWord 0b10010 b, a)
  | .skbs b a => (bitWord 0b10011 b, a)
  | .pclrb b p => (bitWord 0b10100 b, p)
  | .psetb b p => (bitWord 0b10101 b, p)
  | .pskbc b p => (bitWord 0b10110 b, p)
  | .pskbs b p => (bitWord 0b10111 b, p)
  | .inPort p => (0xC0, p)
  | .outPort p => (0xC1, p)
  | .implicitHalt => (0x00, 0x00)

/-- The bytes of an instruction in memory order: CR0 at the lower offset, CR1 next (R65). -/
def encodeBytes (i : Instr) : List Word := [(encode i).2, (encode i).1]

end Sys2Proof
end

