-- ==== Sys2Proof/Config.lean ====
section
/-! DEFINITION. What an implementation fixes and the values the spec leaves free. Each is an opaque constant:
nothing can evaluate it, so a theorem about the model holds whatever it is. -/

namespace Sys2Proof.Config

/-- `RESET_VECTOR_ADDR`, a flat address in 0..1022 (R7, D2, U4). Log 2. -/
opaque resetVectorAddr : Fin 1023

/-- `IMAGE`: the contents of main memory when the core is first reset (R7, R61, D41, U5). No cell is known to be zero or
anything else. Log 1. -/
opaque image : (address : Addr) → Word

/-- `DIV0`: what DIV leaves in ACC when the divisor is zero, by the dividend (R7, R177, D24, U3). Log 6. -/
opaque div0 : Word → Word

/-- The device side's answer to the `n`-th question it is asked, a `readPort` of a port (R72, U6). Log 7. -/
opaque portWord : (n : Nat) → (port : Word) → Word

/-- The device side's answer to the `n`-th question, a `readPortBit` (R73, U6). Log 7. -/
opaque portBit : (n : Nat) → (port : Word) → (bit : BitIdx) → Bool

/-- The device side's answer to the `n`-th question, `hasPendingInterrupt` (R336, U6). Log 7. -/
opaque irqPending : (n : Nat) → Bool

/-- The device side's answer to the `n`-th question, `acknowledgeInterrupt` (R337, U6, U15). Log 7. -/
opaque irqAck : (n : Nat) → Nat

end Sys2Proof.Config
end

