-- ==== Sys2Proof/Machine/Bits.lean ====
section
/-! DEFINITION. Single bits of a Word and the rotates (00_scope.md R9, 40_microcode.md R159). -/

namespace Sys2Proof.Machine

/-- `w` with its bit `i` set to `v`, the other bits as they were (R308, and each `F.x <- v`). -/
def setBit (i : Nat) (v : Bool) (w : Word) : Word :=
  if v then w ||| (1#8 <<< i) else w &&& ~~~(1#8 <<< i)

/-- ROL: `c <- x[7]; x <- {x[6:0], x[7]}` (R159). The result and the bit moved out. -/
def rol (x : Word) : Word × Bool := ((x <<< 1) ||| (x >>> 7), x.getLsbD 7)

/-- ROR: `c <- x[0]; x <- {x[0], x[7:1]}` (R159). -/
def ror (x : Word) : Word × Bool := ((x >>> 1) ||| (x <<< 7), x.getLsbD 0)

/-- ROLC: `c <- x[7]; x <- {x[6:0], F.C}` (R159). -/
def rolc (c : Bool) (x : Word) : Word × Bool := (setBit 0 c (x <<< 1), x.getLsbD 7)

/-- RORC: `c <- x[0]; x <- {F.C, x[7:1]}` (R159). -/
def rorc (c : Bool) (x : Word) : Word × Bool := (setBit 7 c (x >>> 1), x.getLsbD 0)

end Sys2Proof.Machine
end

