-- ==== Sys2Proof/Machine/Alu.lean ====
section
/-! DEFINITION. The Word operations (41_alu_flags.md R170 to R177): Words are unsigned numbers, the result is reduced
modulo 256, and the second component is the report, false for an operation that reports nothing. -/

namespace Sys2Proof.Machine

/-- `add8` (R171): the report is the unsigned carry out. -/
def add8 (a b : Word) : Word × Bool :=
  (BitVec.ofNat 8 (a.toNat + b.toNat), decide (a.toNat + b.toNat > 255))

/-- `sub8` (R172): the report is the borrow. -/
def sub8 (a b : Word) : Word × Bool :=
  (BitVec.ofInt 8 ((a.toNat : Int) - b.toNat), decide (a.toNat < b.toNat))

/-- `inc8` (R173). -/
def inc8 (a : Word) : Word × Bool := add8 a 1

/-- `dec8` (R173). -/
def dec8 (a : Word) : Word × Bool := sub8 a 1

/-- `adc8` (R174): the carry-in added, the report chained. -/
def adc8 (a b : Word) (cin : Bool) : Word × Bool :=
  (BitVec.ofNat 8 (a.toNat + b.toNat + cin.toNat), decide (a.toNat + b.toNat + cin.toNat > 255))

/-- `sbb8` (R174): the borrow-in subtracted, the report chained. -/
def sbb8 (a b : Word) (cin : Bool) : Word × Bool :=
  (BitVec.ofInt 8 ((a.toNat : Int) - b.toNat - cin.toNat), decide (a.toNat < b.toNat + cin.toNat))

/-- `not8` (R175). -/
def not8 (a : Word) : Word × Bool := (~~~a, false)

/-- `and8` (R175). -/
def and8 (a b : Word) : Word × Bool := (a &&& b, false)

/-- `or8` (R175). -/
def or8 (a b : Word) : Word × Bool := (a ||| b, false)

/-- `xor8` (R175). -/
def xor8 (a b : Word) : Word × Bool := (a ^^^ b, false)

/-- `mul8` (R176): the low 8 bits of the unsigned product. -/
def mul8 (a b : Word) : Word × Bool := (BitVec.ofNat 8 (a.toNat * b.toNat), false)

/-- `div8` (R177): the unsigned quotient; with a zero divisor the free value `DIV0(a)`. Log 6. -/
def div8 (a b : Word) : Word × Bool :=
  (if b = 0 then Config.div0 a else BitVec.ofNat 8 (a.toNat / b.toNat), false)

/-- The adjustment of DAA and DSA, from ACC and the flags A and C before the instruction (R290, R291). Log 18. -/
def bcdAdjustment (old : Word) (a c : Bool) : Word :=
  (if (old &&& 0x0F).toNat > 9 || a then 0x06 else 0x00) + (if old.toNat > 0x99 || c then 0x60 else 0x00)

end Sys2Proof.Machine
end

