-- ==== Sys2Proof/Machine/Memory.lean ====
section
/-! DEFINITION. Main memory as plain data: the cells that were written, over the contents the first reset left (20_memory.md
R60 to R62, R68). The list is in one canonical form, addresses strictly rising and below 1024, so the same written cells
are the same list (log 22). Only the core and the host write it (log 20). -/

namespace Sys2Proof.Machine

/-- Main memory (R60): the cells written since the first reset, by rising address. -/
abbrev Memory := List Host.Cell

/-- The number of cells, `MEMSIZE` (R6, R60). -/
def memSize : Nat := 1024

/-- What a cell reads as that was not written since the first reset: the parameter IMAGE, of which nothing is known (R61,
R68), but for the one cell the first reset cleared (R370). Log 1, log 3. -/
def Memory.unlisted (x : Nat) : Word :=
  if x = Config.resetVectorAddr.val + 1 then 0x00 else Config.image (BitVec.ofNat 10 x)

/-- The Word last written to a cell, if any was (R68). -/
def Memory.written : Memory → Nat → Option Word
  | [], _ => none
  | (a, v) :: m, x => if a = x then some v else Memory.written m x

/-- One cell (R68, R70). -/
def Memory.read (m : Memory) (x : Nat) : Word := (Memory.written m x).getD (Memory.unlisted x)

/-- Write one cell (R71), which keeps the canonical form. -/
def Memory.write (x : Nat) (v : Word) : Memory → Memory
  | [] => [(x, v)]
  | (a, w) :: m =>
    if x < a then (x, v) :: (a, w) :: m else if a = x then (x, v) :: m else (a, w) :: Memory.write x v m

/-- Addresses strictly rising from `lo`, all below 1024. -/
def Memory.wfFrom : Nat → Memory → Bool
  | _, [] => true
  | lo, (a, _) :: m => decide (lo ≤ a) && decide (a < memSize) && Memory.wfFrom (a + 1) m

/-- The canonical form. -/
def Memory.wf (m : Memory) : Bool := Memory.wfFrom 0 m

end Sys2Proof.Machine
end

