-- ==== Sys2Proof/Machine/State.lean ====
section
/-! DEFINITION. The state of the machine as plain data (10_state.md), the device side and the host as the core sees them,
the reasons to stop, and the state after reset. -/

namespace Sys2Proof.Machine

/-- A call the core makes on its surroundings, with the answer it got (20_memory.md R72 to R75). -/
inductive CollaboratorCall where
  /-- `readPort(port) -> value` (R72). -/
  | readPort (port value : Word)
  /-- `writePort(port, value)` (R72). -/
  | writePort (port value : Word)
  /-- `readPortBit(port, bit) -> value` (R73). -/
  | readPortBit (port : Word) (bit : BitIdx) (value : Bool)
  /-- `writePortBit(port, bit, value)` (R73). -/
  | writePortBit (port : Word) (bit : BitIdx) (value : Bool)
  /-- `hasPendingInterrupt() -> value` (R74, R336). -/
  | hasPendingInterrupt (value : Bool)
  /-- `acknowledgeInterrupt() -> id` (R74, R337). -/
  | acknowledgeInterrupt (id : Nat)
  /-- `clearInterruptAcknowledge()` (R74, R338). -/
  | clearInterruptAcknowledge
  /-- The observer callback `onTick(pcl, cs, running)` (R75). -/
  | onTick (pcl : Word) (cs : Seg) (running : Bool)
  /-- The observer callback `onReset()` (R75). -/
  | onReset
  /-- The observer callback `onStateChanged()` (R75, R380). -/
  | onStateChanged
  deriving DecidableEq, Repr

/-- The device side as the core sees it (R3, R40(b), R76): the model's own data, not registers of the core. Log 7. -/
structure DeviceSide where
  /-- Answers ready for `readPort`, oldest first; with none ready the answer is `Config.portWord`. -/
  words : List Word
  /-- Answers ready for `readPortBit`; with none ready, `Config.portBit`. -/
  bits : List Bool
  /-- Answers ready for `hasPendingInterrupt`; with none ready, `Config.irqPending`. -/
  pending : List Bool
  /-- Answers ready for `acknowledgeInterrupt`; with none ready, `Config.irqAck`. -/
  ids : List Nat
  /-- How many questions the device side has been asked: the argument of the free answers. -/
  draws : Nat
  /-- The calls made so far, newest first. Log 12. -/
  calls : List CollaboratorCall
  deriving DecidableEq, Repr

/-- A place a host poke may name: a memory cell or a register of the persisted layout (R52, R380). Addresses and register
numbers are user-supplied numbers, checked when the poke is honoured. -/
inductive PokeTarget where
  | memory (address : Nat)
  | reg (number : Nat)
  | acc
  | dr
  | flags
  | ss
  | ds
  | cs
  | pcl
  | spl
  | cr0
  | cr1
  deriving DecidableEq, Repr

/-- What the host may ask at a tick boundary (R376). -/
inductive HostRequest where
  /-- Reset (R371). -/
  | reset
  /-- Start continuous run (R377). -/
  | run
  /-- Stop continuous run (R377). -/
  | stop
  /-- Execute one tick (R378). -/
  | step
  /-- Write a location (R380). -/
  | poke (target : PokeTarget) (value : Nat)
  /-- Sample the state (R381). -/
  | snapshot
  deriving DecidableEq, Repr

/-- The state at a tick boundary. -/
structure State where
  /-- ACC, the accumulator (R20). -/
  acc : Word
  /-- R[0] to R[7] (R21). -/
  regs : Vector Word 8
  /-- DR, the flags shadow (R22). -/
  dr : Word
  /-- CR0, the operand word of the instruction latch (R23). -/
  cr0 : Word
  /-- CR1, the opcode word of the instruction latch (R23). -/
  cr1 : Word
  /-- PCL, the offset of the next instruction (R24). -/
  pcl : Word
  /-- SPL, the stack pointer (R26). -/
  spl : Word
  /-- CS, the code segment (R27). -/
  cs : Seg
  /-- DS, the data segment (R27). -/
  ds : Seg
  /-- SS, the stack segment (R27). -/
  ss : Seg
  /-- FLAGS, eight bits in the layout of R30. -/
  flags : Word
  /-- AL, the address latch (R33). -/
  al : Addr
  /-- DL, the data latch (R34). -/
  dl : Word
  /-- RUN (R37). -/
  run : Bool
  /-- PRE, the snapshot of the pre-operation operand (R38). -/
  pre : Word
  /-- ARG, the snapshot of the second operand (R38). -/
  arg : Word
  /-- PRE_V (R38). -/
  preValid : Bool
  /-- ARG_V (R38). -/
  argValid : Bool
  /-- UNREC, the diagnosable-condition latch (R39). -/
  unrec : Bool
  /-- Main memory (R40(a), R60). -/
  mem : Memory
  /-- The device side (R40(b)); the model's own. -/
  dev : DeviceSide
  /-- What the host asks at each coming tick boundary, soonest first: `none` is a boundary at which it asks nothing, and
  past the end it asks nothing; the model's own. Log 10. -/
  host : List (Option HostRequest)
  deriving DecidableEq, Repr

/-- Why the machine stops. -/
inductive Fault where
  /-- A flag update without its snapshots (R191, R331, U11): raised by the flag update alone. No instruction reaches it.
  Safe: it stops where the source says to abort. Log 13. -/
  | contractViolation
  deriving DecidableEq, Repr

/-- Why an instruction is given no meaning. -/
inductive Refusal where
  /-- Raised by `exec` alone, for an instruction not modelled yet. Safe: nothing is claimed of the instruction. No arm of
  `exec` raises it now. -/
  | notModelled (mnemonic : String)
  deriving DecidableEq, Repr

/-- The device side before anything was asked of it: nothing scripted, so every answer is free. Log 7. -/
def DeviceSide.fresh : DeviceSide :=
  { words := [], bits := [], pending := [], ids := [], draws := 0, calls := [] }

/-- The machine right after the first reset (R49, R370), over the image IMAGE, of which nothing is known (log 1): every
register at its reset value, PCL the Word of the reset-vector cell, no cell listed (the one the reset cleared is part of
`Memory.unlisted`), AL and DL as the reset sequence leaves them (log 8), and one `onReset` call made (R75). -/
def State.reset : State where
  acc := 0x00
  regs := Vector.replicate 8 0x00
  dr := 0x00
  cr0 := 0x00
  cr1 := 0x00
  pcl := Memory.read [] Config.resetVectorAddr
  spl := 0x00
  cs := 0
  ds := 2
  ss := 3
  flags := 0x00
  al := BitVec.ofNat 10 (Config.resetVectorAddr + 1)
  dl := 0x00
  run := false
  pre := 0x00
  arg := 0x00
  preValid := false
  argValid := false
  unrec := false
  mem := []
  dev := { DeviceSide.fresh with calls := [.onReset] }
  host := []

end Sys2Proof.Machine
end

