-- ==== Sys2Proof/Machine/Flags.lean ====
section
/-! DEFINITION. The flags register and the flags controller (10_state.md R30, 41_alu_flags.md R180 to R196). -/

namespace Sys2Proof.Machine

/-- The bits of FLAGS by name (R30). -/
inductive Flag where
  | z
  | n
  | o
  | a
  | c
  | i
  | u6
  | u7
  deriving DecidableEq, Repr

/-- The position of a flag in the flags byte (R30, D6). -/
def Flag.pos : Flag → Nat
  | .z => 0
  | .n => 1
  | .o => 2
  | .a => 3
  | .c => 4
  | .i => 5
  | .u6 => 6
  | .u7 => 7

/-- One flag of a flags byte. -/
def flagOf (f : Flag) (w : Word) : Bool := w.getLsbD f.pos

/-- A flags byte with one flag written. -/
def withFlag (f : Flag) (v : Bool) (w : Word) : Word := setBit f.pos v w

/-- Read a flag: `F.x`. -/
def State.flag (s : State) (f : Flag) : Bool := flagOf f s.flags

/-- Write a flag: `F.x <- v`. -/
def State.setFlag (f : Flag) (v : Bool) (s : State) : State := { s with flags := withFlag f v s.flags }

/-- The operations that end in a flag update (R181). -/
inductive AluOp where
  | add
  | sub
  | mul
  | div
  | cmp
  | adc
  | subb
  | and
  | or
  | xor
  | not
  | inc
  | dec
  | daa
  | dsa
  deriving DecidableEq, Repr

/-- The categories of the flags controller (R181). -/
inductive Category where
  | arithmetic
  | logical
  | incAdj
  deriving DecidableEq, Repr

/-- The category of each operation (R181). -/
def AluOp.category : AluOp → Category
  | .add => .arithmetic
  | .sub => .arithmetic
  | .mul => .arithmetic
  | .div => .arithmetic
  | .cmp => .arithmetic
  | .adc => .arithmetic
  | .subb => .arithmetic
  | .and => .logical
  | .or => .logical
  | .xor => .logical
  | .not => .logical
  | .inc => .incAdj
  | .dec => .incAdj
  | .daa => .incAdj
  | .dsa => .incAdj

/-- The operations with a second operand, which take both snapshots (R180). -/
def AluOp.twoOperand : AluOp → Bool
  | .add => true
  | .sub => true
  | .mul => true
  | .div => true
  | .cmp => true
  | .adc => true
  | .subb => true
  | .and => true
  | .or => true
  | .xor => true
  | .not => false
  | .inc => false
  | .dec => false
  | .daa => false
  | .dsa => false

/-- `z`: the result is 0 (R182). -/
def zeroOf (res : Word) : Bool := decide (res = 0)

/-- `n`: bit 7 of the result (R183). -/
def negativeOf (res : Word) : Bool := res.getLsbD 7

/-- `o`: snapshot and argument share a sign that the result does not have (R185, C5): one formula for the whole
arithmetic category. -/
def overflowOf (pre arg res : Word) : Bool :=
  pre.getLsbD 7 == arg.getLsbD 7 && res.getLsbD 7 != pre.getLsbD 7

/-- The low nibble of a Word as a number, `x & 0xF`. -/
def lowNibble (x : Word) : Nat := x.toNat % 16

/-- `a`: the half-carry, derived per operation (R184). The logical category forces A to 0 whatever this gives (R188). -/
def halfCarryOf (op : AluOp) (pre arg res : Word) (cin : Bool) : Bool :=
  match op with
  | .add => decide (lowNibble pre + lowNibble arg > 15)
  | .adc => decide (lowNibble pre + lowNibble arg + cin.toNat > 15)
  | .inc => decide (lowNibble pre = 0xF)
  | .dec => decide (lowNibble pre = 0x0)
  | .sub => decide (lowNibble pre < lowNibble arg)
  | .cmp => decide (lowNibble pre < lowNibble arg)
  | .subb => decide (lowNibble pre < lowNibble arg + cin.toNat)
  | .daa => decide (lowNibble res ≠ lowNibble pre)
  | .dsa => decide (lowNibble res ≠ lowNibble pre)
  | .mul => false
  | .div => false
  | .and => false
  | .or => false
  | .xor => false
  | .not => false

/-- The flags byte after the mask of a category (R187, R188, R189). -/
def applyMask (cat : Category) (z n o a c : Bool) (w : Word) : Word :=
  match cat with
  | .arithmetic => withFlag .c c (withFlag .a a (withFlag .o o (withFlag .n n (withFlag .z z w))))
  | .logical =>
    withFlag .n n (withFlag .z z
      (withFlag .o false (withFlag .n false (withFlag .z false (withFlag .c false (withFlag .a false w))))))
  | .incAdj => withFlag .c c (withFlag .a a (withFlag .n n (withFlag .z z w)))

/-- The flags byte an operation leaves, from its snapshots, result, report and carry-in (R182 to R189). -/
def flagsAfter (op : AluOp) (pre arg res : Word) (rep cin : Bool) (w : Word) : Word :=
  applyMask op.category (zeroOf res) (negativeOf res) (overflowOf pre arg res) (halfCarryOf op pre arg res cin) rep w

/-- `SNAP_PRE(x)` (R160, R180). -/
def State.snapPre (x : Word) (s : State) : State := { s with pre := x, preValid := true }

/-- `SNAP_ARG(y)` (R160, R180). -/
def State.snapArg (y : Word) (s : State) : State := { s with arg := y, argValid := true }

/-- ARG as the update sees it: `0x00` for a one-operand operation (R180, R190). -/
def State.argFor (op : AluOp) (s : State) : Word := if op.twoOperand then s.arg else 0x00

/-- `UPDATE_FLAGS` once its snapshots are there: flags by the category's mask, valid bits cleared, DR a copy of FLAGS
(R190, R22). Log 9. -/
def State.flagsUpdated (op : AluOp) (res : Word) (rep cin : Bool) (s : State) : State :=
  let w := flagsAfter op s.pre (s.argFor op) res rep cin s.flags
  { s with arg := s.argFor op, flags := w, preValid := false, argValid := false, dr := w }

/-- `UPDATE_FLAGS(category, op, res, rep, cin)` (R190): without its snapshots it is a contract violation (R191). -/
def updateFlags (op : AluOp) (res : Word) (rep cin : Bool) (s : State) : Host.Outcome State Fault Refusal :=
  if s.preValid = false then .fault .contractViolation
  else if op.twoOperand = true ∧ s.argValid = false then .fault .contractViolation
  else .next (s.flagsUpdated op res rep cin)

end Sys2Proof.Machine
end

