-- ==== Sys2Proof/Machine/Ops.lean ====
section
/-! DEFINITION. The named operations over memory, registers, latches and ports: the closed set of primitives of
40_microcode.md, and the sequences built on them: fetch, halt test, interrupt check, acceptance, vectoring, return. -/

namespace Sys2Proof.Machine

/-! ## Memory and registers -/

/-- `ea(seg, off) = off + seg*256` (R29). -/
def ea (seg : Seg) (off : Word) : Addr := BitVec.ofNat 10 (off.toNat + seg.toNat * 256)

/-- `MemRead(addr, 1)` (R70). -/
def State.memRead (s : State) (x : Addr) : Word := Memory.read s.mem x.toNat

/-- `MemWrite(addr, 1, v)` (R71). -/
def State.memWrite (x : Addr) (v : Word) (s : State) : State := { s with mem := Memory.write x.toNat v s.mem }

/-- Read general register `r` (R21). -/
def State.reg (s : State) (r : RegNum) : Word := s.regs.get r.toFin

/-- Write general register `r` (R21). -/
def State.setReg (r : RegNum) (v : Word) (s : State) : State := { s with regs := s.regs.set r.toNat v r.isLt }

/-! ## The device side -/

/-- Record a call (R75; log 12). -/
def DeviceSide.record (c : CollaboratorCall) (d : DeviceSide) : DeviceSide := { d with calls := c :: d.calls }

/-- What the device side answers to `readPort(p)` (R72): its next ready answer, else a free value (R76, U6). -/
def DeviceSide.wordAnswer (d : DeviceSide) (p : Word) : Word := d.words.headD (Config.portWord d.draws p)

/-- The device side after `readPort(p)`. -/
def DeviceSide.askWord (p : Word) (d : DeviceSide) : DeviceSide :=
  { d with words := d.words.tail, draws := d.draws + 1, calls := .readPort p (d.wordAnswer p) :: d.calls }

/-- What the device side answers to `readPortBit(p, b)` (R73). -/
def DeviceSide.bitAnswer (d : DeviceSide) (p : Word) (b : BitIdx) : Bool := d.bits.headD (Config.portBit d.draws p b)

/-- The device side after `readPortBit(p, b)`. -/
def DeviceSide.askBit (p : Word) (b : BitIdx) (d : DeviceSide) : DeviceSide :=
  { d with bits := d.bits.tail, draws := d.draws + 1, calls := .readPortBit p b (d.bitAnswer p b) :: d.calls }

/-- What the device side answers to `hasPendingInterrupt()` (R336). -/
def DeviceSide.pendingAnswer (d : DeviceSide) : Bool := d.pending.headD (Config.irqPending d.draws)

/-- The device side after `hasPendingInterrupt()`. -/
def DeviceSide.askPending (d : DeviceSide) : DeviceSide :=
  { d with pending := d.pending.tail, draws := d.draws + 1, calls := .hasPendingInterrupt d.pendingAnswer :: d.calls }

/-- What the device side answers to `acknowledgeInterrupt()` (R337): any index; the vector reduces it (log 21). -/
def DeviceSide.ackAnswer (d : DeviceSide) : Nat := d.ids.headD (Config.irqAck d.draws)

/-- The device side after `acknowledgeInterrupt()`. -/
def DeviceSide.askAck (d : DeviceSide) : DeviceSide :=
  { d with ids := d.ids.tail, draws := d.draws + 1, calls := .acknowledgeInterrupt d.ackAnswer :: d.calls }

/-- Record a call of the core in the state. -/
def State.call (c : CollaboratorCall) (s : State) : State := { s with dev := s.dev.record c }

/-! ## Data-latch loads and stores (R141 to R146) -/

/-- `LD_MEM` (R141). -/
def State.ldMem (s : State) : State := { s with dl := s.memRead s.al }

/-- `ST_MEM` (R142). -/
def State.stMem (s : State) : State := s.memWrite s.al s.dl

/-- `LD_REG(r)` (R143). -/
def State.ldReg (r : RegNum) (s : State) : State := { s with dl := s.reg r }

/-- `ST_REG(r)` (R143). -/
def State.stReg (r : RegNum) (s : State) : State := s.setReg r s.dl

/-- `LD_CR0` (R143), with the operand word as the decoder read it from CR0. Log 19. -/
def State.ldCr0 (k : Word) (s : State) : State := { s with dl := k }

/-- `LD_PCL` (R143): the return offset to push. -/
def State.ldPcl (s : State) : State := { s with dl := s.pcl }

/-- The status word `{FLAGS[5:0], CS}` (R342, D7). -/
def statusWord (flags : Word) (cs : Seg) : Word := (flags <<< 2) ||| cs.setWidth 8

/-- `LD_STATUS` (R143). -/
def State.ldStatus (s : State) : State := { s with dl := statusWord s.flags s.cs }

/-- The port the address latch names, `AL[7:0]` (R144). -/
def State.alPort (s : State) : Word := s.al.setWidth 8

/-- `LD_PORT` (R144): one call. -/
def State.ldPort (s : State) : State := { s with dl := s.dev.wordAnswer s.alPort, dev := s.dev.askWord s.alPort }

/-- `ST_PORT` (R144): one call. -/
def State.stPort (s : State) : State := s.call (.writePort s.alPort s.dl)

/-- The bit `LD_PBIT(b)` puts in the temporary T (R145). -/
def State.portBit (s : State) (b : BitIdx) : Bool := s.dev.bitAnswer s.alPort b

/-- The state after `LD_PBIT(b)` (R145): one call. -/
def State.ldPbit (b : BitIdx) (s : State) : State := { s with dev := s.dev.askBit s.alPort b }

/-- `ST_PBIT(b, v)` (R145): one call. -/
def State.stPbit (b : BitIdx) (v : Bool) (s : State) : State := s.call (.writePortBit s.alPort b v)

/-- `DL[b] <- v` (R145, R308). -/
def State.setDlBit (b : BitIdx) (v : Bool) (s : State) : State := { s with dl := setBit b.toNat v s.dl }

/-- `CR0 <- MemRead(AL, 1)` (R146). -/
def State.loadCr0 (s : State) : State := { s with cr0 := s.memRead s.al }

/-- `CR1 <- MemRead(AL, 1)` (R146). -/
def State.loadCr1 (s : State) : State := { s with cr1 := s.memRead s.al }

/-! ## Effective addresses (R147 to R154) -/

/-- `EA_DIRECT` with offset `a` (R147). -/
def State.eaDirect (a : Word) (s : State) : State := { s with al := ea s.ds a }

/-- `EA_IND(r)` (R148). -/
def State.eaInd (r : RegNum) (s : State) : State := { s with al := ea s.ds (s.reg r) }

/-- `ADJ_INC(r)` (R149): no flag is written (R210). -/
def State.adjInc (r : RegNum) (s : State) : State := s.setReg r (s.reg r + 1)

/-- The decrement of `EA_PREDEC(r)` (R150): no flag is written (R210). -/
def State.adjDec (r : RegNum) (s : State) : State := s.setReg r (s.reg r - 1)

/-- `EA_POSTINC(r)` (R149): the address of `EA_IND(r)`. -/
def State.eaPostInc (r : RegNum) (s : State) : State := s.eaInd r

/-- `EA_PREDEC(r)` (R150). -/
def State.eaPreDec (r : RegNum) (s : State) : State := (s.adjDec r).eaInd r

/-- `EA_STACK` (R151). -/
def State.eaStack (s : State) : State := { s with al := ea s.ss s.spl }

/-- The offset of cell `k` of vector `id`: `(id*2 + k) mod 256` (R69, R152). -/
def vectorOffset (id k : Nat) : Word := BitVec.ofNat 8 (id * 2 + k)

/-- `EA_VECTOR(id, k)` (R152). -/
def State.eaVector (id k : Nat) (s : State) : State := { s with al := ea s.cs (vectorOffset id k) }

/-- `EA_CODE` (R153). -/
def State.eaCode (s : State) : State := { s with al := ea s.cs s.pcl }

/-- `EA_PORT(p)` (R154): the port address zero-extended. -/
def State.eaPort (p : Word) (s : State) : State := { s with al := p.setWidth 10 }

/-! ## Moves, pointer steps, segment transfers (R155 to R158) -/

/-- `ACC_TO_DL` (R155). -/
def State.accToDl (s : State) : State := { s with dl := s.acc }

/-- `DL_TO_ACC` (R155). -/
def State.dlToAcc (s : State) : State := { s with acc := s.dl }

/-- `PCL_INC` (R156), which wraps (R25; log 4). -/
def State.pclInc (s : State) : State := { s with pcl := s.pcl + 1 }

/-- `PCL_DEC` (R156): no handler uses it. -/
def State.pclDec (s : State) : State := { s with pcl := s.pcl - 1 }

/-- `PCL_LOAD` from DL (R156). -/
def State.pclLoad (s : State) : State := { s with pcl := s.dl }

/-- `PCL_LOAD` from CR0, in the vectoring sequence (R156). -/
def State.pclLoadCr0 (s : State) : State := { s with pcl := s.cr0 }

/-- `SPL_DEC` (R157). -/
def State.splDec (s : State) : State := { s with spl := s.spl - 1 }

/-- `SPL_INC` (R157). -/
def State.splInc (s : State) : State := { s with spl := s.spl + 1 }

/-- `PUSH_DL` (R157, R26). -/
def State.pushDl (s : State) : State := s.splDec.eaStack.stMem

/-- `POP_DL` (R157, R26): the Word popped is in DL. -/
def State.popDl (s : State) : State := s.eaStack.ldMem.splInc

/-- `CS_LOAD(v)` (R158). -/
def State.csLoad (v : Word) (s : State) : State := { s with cs := v.extractLsb' 0 2 }

/-- The segment load of R158 on DS: no handler uses it (R28). -/
def State.dsLoad (v : Word) (s : State) : State := { s with ds := v.extractLsb' 0 2 }

/-- The segment load of R158 on SS: no handler uses it (R28). -/
def State.ssLoad (v : Word) (s : State) : State := { s with ss := v.extractLsb' 0 2 }

/-! ## Rotates (R159) -/

/-- A rotate applied to ACC: the result goes to ACC and the bit moved out to C. -/
def State.rotateAcc (x : Word × Bool) (s : State) : State := ({ s with acc := x.1 }).setFlag .c x.2

/-- A rotate applied to the data latch: no handler uses it (R159). -/
def State.rotateDl (x : Word × Bool) (s : State) : State := ({ s with dl := x.1 }).setFlag .c x.2

/-! ## Taking an interrupt and returning from one (60_exceptions.md) -/

/-- The two pushes of an entry (R341, R252): PCL, then the status word. -/
def State.saveForEntry (s : State) : State := s.ldPcl.pushDl.ldStatus.pushDl

/-- `VECTOR(id)` (R343): both vector words are read with the CS in force before, CS and PCL are loaded from them, and I is
cleared. -/
def State.vector (id : Nat) (s : State) : State :=
  let s1 := ((s.eaVector id 0).loadCr0.eaVector id 1).loadCr1
  ((s1.csLoad s1.cr1).pclLoadCr0).setFlag .i false

/-- The software interrupt sequence of INT (R252): the pushes, then the vector `n`. -/
def State.softwareInterrupt (n : Word) (s : State) : State := s.saveForEntry.vector n.toNat

/-- `IrqAck()` (R337): one call. -/
def State.irqAck (s : State) : State := { s with dev := s.dev.askAck }

/-- `ACCEPT()` (R341): the pushes, then the acknowledged line's vector. -/
def State.accept (s : State) : State := s.saveForEntry.irqAck.vector s.saveForEntry.dev.ackAnswer

/-- `IrqPending()` (R336): one call. -/
def State.irqPending (s : State) : State := { s with dev := s.dev.askPending }

/-- The interrupt check (R340): nothing is asked unless I is set. -/
def State.interruptCheck (s : State) : State :=
  if s.flag .i then (if s.dev.pendingAnswer then s.irqPending.accept else s.irqPending) else s

/-- `IrqClear()` (R338): one call. -/
def State.irqClear (s : State) : State := s.call .clearInterruptAcknowledge

/-- FLAGS with bits 5..0 taken from bits 7..2 of a status word, U6 and U7 kept (R283, D37). -/
def restoreFlags (status flags : Word) : Word := (flags &&& 0xC0) ||| (status >>> 2)

/-- CS and the six flags restored from the status word in DL (R283). -/
def State.restoreStatus (s : State) : State := { s.csLoad s.dl with flags := restoreFlags s.dl s.flags }

/-- The return sequence of IRET (R283, R346). -/
def State.interruptReturn (s : State) : State := s.popDl.restoreStatus.popDl.pclLoad.irqClear

/-! ## The steps of a tick around the handler (30_encoding.md R100 to R104) -/

/-- The fetch (R101): CR0, then CR1, PCL advanced once after each. -/
def State.fetch (s : State) : State := s.eaCode.loadCr0.pclInc.eaCode.loadCr1.pclInc

/-- The implicit-halt test, on the latches as the handler left them (R104, D42). -/
def State.haltTest (s : State) : State := if s.cr0 = 0x00 ∧ s.cr1 = 0x00 then { s with run := false } else s

/-- The observer callback at the end of a tick (R75, R100). -/
def State.onTick (s : State) : State := s.call (.onTick s.pcl s.cs s.run)

/-- Steps (4) to (6) of a tick (R100): the halt test, the interrupt check if the tick did not halt, the callback. -/
def State.retire (s : State) : State :=
  (if s.haltTest.run then s.haltTest.interruptCheck else s.haltTest).onTick

/-! ## Reset (70_reset_and_hazards.md R370) -/

/-- The reset sequence with the reset vector at `rva` (R370): every register to its reset value, PCL from the
reset-vector cell, the cell after it cleared, `onReset()`. Memory is otherwise untouched, and so are the device side but
for the callback, and the host (R371). -/
def State.resetSequence (rva : Fin 1023) (s : State) : State :=
  let cleared : State :=
    { s with
      acc := 0x00, regs := Vector.replicate 8 0x00, dr := 0x00, cr0 := 0x00, cr1 := 0x00, spl := 0x00, flags := 0x00
      cs := 0, ds := 2, ss := 3
      pre := 0x00, arg := 0x00, preValid := false, argValid := false, unrec := false, run := false }
  let loaded := ({ cleared with al := BitVec.ofNat 10 rva }).ldMem.pclLoad
  ({ loaded with al := BitVec.ofNat 10 (rva + 1), dl := 0x00 }).stMem.call .onReset

end Sys2Proof.Machine
end

