-- ==== Sys2Proof/Machine/Operands.lean ====
section
/-! DEFINITION. The six operand forms and the four access functions the instruction rules use (42_operands.md). -/

namespace Sys2Proof.Machine

/-- The operand of an ALU/move instruction, in one of the six forms (R200): a register form (RG), memory direct (MD) or
immediate (IM). -/
inductive Operand where
  /-- Register-operand class, `m` and `r` of CR0 (R201 to R204). -/
  | rg (m : Mode) (r : RegNum)
  /-- Memory direct, the cell at offset `a` of the data segment (R205). -/
  | md (a : Word)
  /-- Immediate, the constant `k` (R206). -/
  | im (k : Word)
  deriving DecidableEq, Repr

/-- Where an operand lies: a general register, a memory cell, or nowhere (a constant) (R207). -/
inductive Loc where
  | reg (r : RegNum)
  | mem (x : Addr)
  | imm (k : Word)
  deriving DecidableEq, Repr

/-- The first part of `operand_open` (R207): the pre-decrement form steps its register (R204). -/
def Operand.stepBefore (o : Operand) (s : State) : State :=
  match o with
  | .rg .preDec r => s.adjDec r
  | .rg .direct _ => s
  | .rg .indirect _ => s
  | .rg .postInc _ => s
  | .md _ => s
  | .im _ => s

/-- The location of an operand, with the registers as `stepBefore` leaves them (R201 to R207). -/
def Operand.loc (o : Operand) (s : State) : Loc :=
  match o with
  | .rg .direct r => .reg r
  | .rg .indirect r => .mem (ea s.ds (s.reg r))
  | .rg .postInc r => .mem (ea s.ds (s.reg r))
  | .rg .preDec r => .mem (ea s.ds (s.reg r))
  | .md a => .mem (ea s.ds a)
  | .im k => .imm k

/-- The location `operand_open` fixes for the whole handler (R207). -/
def Operand.openLoc (o : Operand) (s : State) : Loc := o.loc (o.stepBefore s)

/-- `operand_read` (R207): the value is left in DL. -/
def Loc.read (l : Loc) (s : State) : State :=
  match l with
  | .reg r => s.ldReg r
  | .mem x => ({ s with al := x }).ldMem
  | .imm k => s.ldCr0 k

/-- `operand_write(v)` (R207). A constant has no location and is never written (R206). -/
def Loc.write (l : Loc) (v : Word) (s : State) : State :=
  match l with
  | .reg r => ({ s with dl := v }).stReg r
  | .mem x => ({ s with dl := v, al := x }).stMem
  | .imm _ => { s with dl := v }

/-- `operand_close` (R207): the post-increment form steps its register (R203). -/
def Operand.stepAfter (o : Operand) (s : State) : State :=
  match o with
  | .rg .postInc r => s.adjInc r
  | .rg .direct _ => s
  | .rg .indirect _ => s
  | .rg .preDec _ => s
  | .md _ => s
  | .im _ => s

/-- The value at a location. -/
def Loc.value (l : Loc) (s : State) : Word :=
  match l with
  | .reg r => s.reg r
  | .mem x => s.memRead x
  | .imm k => k

/-- The value of an operand, as an instruction that reads it finds it (R201 to R207). -/
def Operand.value (o : Operand) (s : State) : Word := (o.openLoc s).value (o.stepBefore s)

/-- The read-only pattern: `operand_open; v <- operand_read; operand_close`, the value in DL (R208). -/
def Operand.load (o : Operand) (s : State) : State := o.stepAfter ((o.openLoc s).read (o.stepBefore s))

/-- The write-only pattern: `operand_open; operand_write(v); operand_close` (R208). -/
def Operand.store (o : Operand) (v : Word) (s : State) : State :=
  o.stepAfter ((o.openLoc s).write v (o.stepBefore s))

/-- The first half of the read-modify-write pattern: `operand_open; v <- operand_read` (R208). -/
def Operand.fetchForUpdate (o : Operand) (s : State) : State := (o.openLoc s).read (o.stepBefore s)

/-- The second half: `operand_write(v); operand_close`, at the location that was opened in `s0` (R208). -/
def Operand.writeBack (o : Operand) (s0 : State) (v : Word) (s : State) : State :=
  o.stepAfter ((o.openLoc s0).write v s)

end Sys2Proof.Machine
end

