-- ==== Sys2Proof/Machine/AluShapes.lean ====
section
/-! DEFINITION. The shared shapes of the ALU instructions (43_alu_move.md): snapshots, the Word operation, the
flag update (41_alu_flags.md R180). -/

namespace Sys2Proof.Machine

/-- `ACC <- f(ACC, operand, cin)` with the flags of `op` (the common shape of R224 to R230, R235, R236). -/
def accOp (op : AluOp) (f : Word → Word → Bool → Word × Bool) (o : Operand) (s : State) :
    Host.Outcome State Fault Refusal :=
  let s1 := o.load s
  let x := f s1.acc s1.dl (s.flag .c)
  updateFlags op x.1 x.2 (s.flag .c) { (s1.snapPre s1.acc).snapArg s1.dl with acc := x.1 }

/-- The flags of `f(ACC, operand, cin)` and no result written (R231). -/
def accCompare (op : AluOp) (f : Word → Word → Bool → Word × Bool) (o : Operand) (s : State) :
    Host.Outcome State Fault Refusal :=
  let s1 := o.load s
  let x := f s1.acc s1.dl (s.flag .c)
  updateFlags op x.1 x.2 (s.flag .c) ((s1.snapPre s1.acc).snapArg s1.dl)

/-- `operand <- f(operand)` in place with the flags of `op`; ACC takes no part (R223, R233, R234). -/
def operandOp (op : AluOp) (f : Word → Word × Bool) (o : Operand) (s : State) :
    Host.Outcome State Fault Refusal :=
  let s1 := o.fetchForUpdate s
  let x := f s1.dl
  updateFlags op x.1 x.2 (s.flag .c) (o.writeBack s x.1 (s1.snapPre s1.dl))

/-- `ACC <- f(ACC)` with the flags of `op` (R290, R291). -/
def accAdjust (op : AluOp) (f : Word → Word × Bool) (s : State) :
    Host.Outcome State Fault Refusal :=
  let x := f s.acc
  updateFlags op x.1 x.2 (s.flag .c) { s.snapPre s.acc with acc := x.1 }

end Sys2Proof.Machine
end

