-- ==== Sys2Proof/Machine/Arith.lean ====
section
/-! DEFINITION. The arithmetic category: ADD, SUB, MUL, DIV, CMP, ADC, SUBB (43_alu_move.md section 2; flags R187). -/

namespace Sys2Proof.Machine

/-- ADD, register operand (R224). -/
def execAddRg (m : Mode) (r : RegNum) (s : State) : Host.Outcome State Fault Refusal :=
  accOp .add (fun x v _ => add8 x v) (.rg m r) s

/-- ADD, memory direct (R224). -/
def execAddMd (a : Word) (s : State) : Host.Outcome State Fault Refusal :=
  accOp .add (fun x v _ => add8 x v) (.md a) s

/-- ADD, immediate (R224). -/
def execAddIm (k : Word) (s : State) : Host.Outcome State Fault Refusal :=
  accOp .add (fun x v _ => add8 x v) (.im k) s

/-- SUB, register operand (R225). -/
def execSubRg (m : Mode) (r : RegNum) (s : State) : Host.Outcome State Fault Refusal :=
  accOp .sub (fun x v _ => sub8 x v) (.rg m r) s

/-- SUB, memory direct (R225). -/
def execSubMd (a : Word) (s : State) : Host.Outcome State Fault Refusal :=
  accOp .sub (fun x v _ => sub8 x v) (.md a) s

/-- SUB, immediate (R225). -/
def execSubIm (k : Word) (s : State) : Host.Outcome State Fault Refusal :=
  accOp .sub (fun x v _ => sub8 x v) (.im k) s

/-- MUL, register operand (R226). -/
def execMulRg (m : Mode) (r : RegNum) (s : State) : Host.Outcome State Fault Refusal :=
  accOp .mul (fun x v _ => mul8 x v) (.rg m r) s

/-- MUL, memory direct (R226). -/
def execMulMd (a : Word) (s : State) : Host.Outcome State Fault Refusal :=
  accOp .mul (fun x v _ => mul8 x v) (.md a) s

/-- MUL, immediate (R226). -/
def execMulIm (k : Word) (s : State) : Host.Outcome State Fault Refusal :=
  accOp .mul (fun x v _ => mul8 x v) (.im k) s

/-- DIV, register operand (R227). -/
def execDivRg (m : Mode) (r : RegNum) (s : State) : Host.Outcome State Fault Refusal :=
  accOp .div (fun x v _ => div8 x v) (.rg m r) s

/-- DIV, memory direct (R227). -/
def execDivMd (a : Word) (s : State) : Host.Outcome State Fault Refusal :=
  accOp .div (fun x v _ => div8 x v) (.md a) s

/-- DIV, immediate (R227). -/
def execDivIm (k : Word) (s : State) : Host.Outcome State Fault Refusal :=
  accOp .div (fun x v _ => div8 x v) (.im k) s

/-- CMP, register operand (R231). -/
def execCmpRg (m : Mode) (r : RegNum) (s : State) : Host.Outcome State Fault Refusal :=
  accCompare .cmp (fun x v _ => sub8 x v) (.rg m r) s

/-- CMP, memory direct (R231). -/
def execCmpMd (a : Word) (s : State) : Host.Outcome State Fault Refusal :=
  accCompare .cmp (fun x v _ => sub8 x v) (.md a) s

/-- CMP, immediate (R231). -/
def execCmpIm (k : Word) (s : State) : Host.Outcome State Fault Refusal :=
  accCompare .cmp (fun x v _ => sub8 x v) (.im k) s

/-- ADC, register operand (R235). -/
def execAdcRg (m : Mode) (r : RegNum) (s : State) : Host.Outcome State Fault Refusal :=
  accOp .adc adc8 (.rg m r) s

/-- ADC, memory direct (R235). -/
def execAdcMd (a : Word) (s : State) : Host.Outcome State Fault Refusal :=
  accOp .adc adc8 (.md a) s

/-- ADC, immediate (R235). -/
def execAdcIm (k : Word) (s : State) : Host.Outcome State Fault Refusal :=
  accOp .adc adc8 (.im k) s

/-- SUBB, register operand (R236). -/
def execSubbRg (m : Mode) (r : RegNum) (s : State) : Host.Outcome State Fault Refusal :=
  accOp .subb sbb8 (.rg m r) s

end Sys2Proof.Machine
end

