-- ==== Sys2Proof/Machine/BitPort.lean ====
section
/-! DEFINITION. Bit instructions on memory and ports, and port I/O (46_bit_port.md). No flag is written. -/

namespace Sys2Proof.Machine

/-- `AL <- ea(DS, a); DL <- MemRead(AL, 1)` (R308). -/
def readCell (a : Word) (s : State) : State := (s.eaDirect a).ldMem

/-- The read-modify-write of one bit of a memory cell (R308). -/
def writeCellBit (b : BitIdx) (v : Bool) (a : Word) (s : State) : State := ((readCell a s).setDlBit b v).stMem

/-- Two `PCL_INC`: the next instruction is skipped (R309). -/
def skipNext (s : State) : State := s.pclInc.pclInc

/-- The skip if `cond` holds (R309). -/
def skipIf (cond : Bool) (s : State) : State := if cond then skipNext s else s

/-- The skip on a memory bit that equals `v` (R312, R313). -/
def skipOnCell (b : BitIdx) (v : Bool) (a : Word) (s : State) : State :=
  skipIf ((readCell a s).dl.getLsbD b.toNat == v) (readCell a s)

/-- The single-bit write of a port: one call, and no read (R308, R314, R315). -/
def writePortBit (b : BitIdx) (v : Bool) (p : Word) (s : State) : State := (s.eaPort p).stPbit b v

/-- The skip on a port bit that equals `v`: one call (R316, R317). -/
def skipOnPort (b : BitIdx) (v : Bool) (p : Word) (s : State) : State :=
  skipIf ((s.eaPort p).portBit b == v) ((s.eaPort p).ldPbit b)

/-- CLRB (R311). -/
def execClrb (b : BitIdx) (a : Word) (s : State) : Host.Outcome State Fault Refusal :=
  .next (writeCellBit b false a s)

/-- SETB (R310). -/
def execSetb (b : BitIdx) (a : Word) (s : State) : Host.Outcome State Fault Refusal :=
  .next (writeCellBit b true a s)

/-- SKBC (R313). -/
def execSkbc (b : BitIdx) (a : Word) (s : State) : Host.Outcome State Fault Refusal :=
  .next (skipOnCell b false a s)

/-- SKBS (R312). -/
def execSkbs (b : BitIdx) (a : Word) (s : State) : Host.Outcome State Fault Refusal :=
  .next (skipOnCell b true a s)

/-- PCLRB (R315). -/
def execPclrb (b : BitIdx) (p : Word) (s : State) : Host.Outcome State Fault Refusal :=
  .next (writePortBit b false p s)

/-- PSETB (R314). -/
def execPsetb (b : BitIdx) (p : Word) (s : State) : Host.Outcome State Fault Refusal :=
  .next (writePortBit b true p s)

/-- PSKBC (R317). -/
def execPskbc (b : BitIdx) (p : Word) (s : State) : Host.Outcome State Fault Refusal :=
  .next (skipOnPort b false p s)

/-- PSKBS (R316). -/
def execPskbs (b : BitIdx) (p : Word) (s : State) : Host.Outcome State Fault Refusal :=
  .next (skipOnPort b true p s)

/-- IN (R318). -/
def execInPort (p : Word) (s : State) : Host.Outcome State Fault Refusal :=
  .next ((s.eaPort p).ldPort.dlToAcc)

/-- OUT (R319). -/
def execOutPort (p : Word) (s : State) : Host.Outcome State Fault Refusal :=
  .next ((s.eaPort p).accToDl.stPort)

end Sys2Proof.Machine
end

