-- ==== Sys2Proof/Machine/Control.lean ====
section
/-! DEFINITION. Control transfer and decrement-and-branch (44_control.md). A target is an absolute offset in the code
segment (R120, R261). No flag is written but I by INT. -/

namespace Sys2Proof.Machine

/-- `LD_CR0; PCL_LOAD`: the target becomes PCL (R250). -/
def jumpTo (t : Word) (s : State) : State := (s.ldCr0 t).pclLoad

/-- `if <condition> then PCL <- CR0` (44_control.md section 3). -/
def jumpIf (cond : Bool) (t : Word) (s : State) : State := if cond then jumpTo t s else s

/-- JMP (R250). -/
def execJmp (t : Word) (s : State) : Host.Outcome State Fault Refusal :=
  .next (jumpTo t s)

/-- CALL (R251). -/
def execCall (t : Word) (s : State) : Host.Outcome State Fault Refusal :=
  .next (jumpTo t s.ldPcl.pushDl)

/-- INT (R252). -/
def execInt (n : Word) (s : State) : Host.Outcome State Fault Refusal :=
  .next (s.softwareInterrupt n)

/-- JZ (R253). -/
def execJz (t : Word) (s : State) : Host.Outcome State Fault Refusal :=
  .next (jumpIf (s.flag .z) t s)

/-- JNZ (R254). -/
def execJnz (t : Word) (s : State) : Host.Outcome State Fault Refusal :=
  .next (jumpIf (!s.flag .z) t s)

/-- JC (R255). -/
def execJc (t : Word) (s : State) : Host.Outcome State Fault Refusal :=
  .next (jumpIf (s.flag .c) t s)

/-- JNC (R256). -/
def execJnc (t : Word) (s : State) : Host.Outcome State Fault Refusal :=
  .next (jumpIf (!s.flag .c) t s)

/-- JN (R257). -/
def execJn (t : Word) (s : State) : Host.Outcome State Fault Refusal :=
  .next (jumpIf (s.flag .n) t s)

/-- JNN (R258). -/
def execJnn (t : Word) (s : State) : Host.Outcome State Fault Refusal :=
  .next (jumpIf (!s.flag .n) t s)

/-- JO (R259). -/
def execJo (t : Word) (s : State) : Host.Outcome State Fault Refusal :=
  .next (jumpIf (s.flag .o) t s)

/-- JNO (R260). -/
def execJno (t : Word) (s : State) : Host.Outcome State Fault Refusal :=
  .next (jumpIf (!s.flag .o) t s)

/-- DJRNZ's register step: `LD_REG(r)`, the Word decrement with its report ignored, `ST_REG(r)` (R262). -/
def decrementRegister (r : RegNum) (s : State) : State :=
  let s1 := s.ldReg r
  ({ s1 with dl := (dec8 s1.dl).1 }).stReg r

/-- DJRNZ (R262): the register is decremented, no flag is written, and the jump is taken if it is not zero. -/
def execDjrnz (r : RegNum) (t : Word) (s : State) : Host.Outcome State Fault Refusal :=
  .next (jumpIf (decide ((decrementRegister r s).reg r ≠ 0)) t (decrementRegister r s))

end Sys2Proof.Machine
end

