-- ==== Sys2Proof/Machine/IncDec.lean ====
section
/-! DEFINITION. INC and DEC, in place on the operand (43_alu_move.md section 4; flags R189). -/

namespace Sys2Proof.Machine

/-- INC, register operand (R233). -/
def execIncRg (m : Mode) (r : RegNum) (s : State) : Host.Outcome State Fault Refusal :=
  operandOp .inc inc8 (.rg m r) s

/-- INC, memory direct (R233). -/
def execIncMd (a : Word) (s : State) : Host.Outcome State Fault Refusal :=
  operandOp .inc inc8 (.md a) s

/-- DEC, register operand (R234). -/
def execDecRg (m : Mode) (r : RegNum) (s : State) : Host.Outcome State Fault Refusal :=
  operandOp .dec dec8 (.rg m r) s

/-- DEC, memory direct (R234). -/
def execDecMd (a : Word) (s : State) : Host.Outcome State Fault Refusal :=
  operandOp .dec dec8 (.md a) s

end Sys2Proof.Machine
end

