-- ==== Sys2Proof/Machine/Logic.lean ====
section
/-! DEFINITION. The logical category: AND, OR, XOR, NOT (43_alu_move.md section 3; flags R188). -/

namespace Sys2Proof.Machine

/-- AND, register operand (R228). -/
def execAndRg (m : Mode) (r : RegNum) (s : State) : Host.Outcome State Fault Refusal :=
  accOp .and (fun x v _ => and8 x v) (.rg m r) s

/-- AND, memory direct (R228). -/
def execAndMd (a : Word) (s : State) : Host.Outcome State Fault Refusal :=
  accOp .and (fun x v _ => and8 x v) (.md a) s

/-- AND, immediate (R228). -/
def execAndIm (k : Word) (s : State) : Host.Outcome State Fault Refusal :=
  accOp .and (fun x v _ => and8 x v) (.im k) s

/-- OR, register operand (R229). -/
def execOrRg (m : Mode) (r : RegNum) (s : State) : Host.Outcome State Fault Refusal :=
  accOp .or (fun x v _ => or8 x v) (.rg m r) s

/-- OR, memory direct (R229). -/
def execOrMd (a : Word) (s : State) : Host.Outcome State Fault Refusal :=
  accOp .or (fun x v _ => or8 x v) (.md a) s

/-- OR, immediate (R229). -/
def execOrIm (k : Word) (s : State) : Host.Outcome State Fault Refusal :=
  accOp .or (fun x v _ => or8 x v) (.im k) s

/-- XOR, register operand (R230). -/
def execXorRg (m : Mode) (r : RegNum) (s : State) : Host.Outcome State Fault Refusal :=
  accOp .xor (fun x v _ => xor8 x v) (.rg m r) s

/-- XOR, memory direct (R230). -/
def execXorMd (a : Word) (s : State) : Host.Outcome State Fault Refusal :=
  accOp .xor (fun x v _ => xor8 x v) (.md a) s

/-- XOR, immediate (R230). -/
def execXorIm (k : Word) (s : State) : Host.Outcome State Fault Refusal :=
  accOp .xor (fun x v _ => xor8 x v) (.im k) s

/-- NOT, register operand (R223). -/
def execNotRg (m : Mode) (r : RegNum) (s : State) : Host.Outcome State Fault Refusal :=
  operandOp .not not8 (.rg m r) s

/-- NOT, memory direct (R223). -/
def execNotMd (a : Word) (s : State) : Host.Outcome State Fault Refusal :=
  operandOp .not not8 (.md a) s

end Sys2Proof.Machine
end

