-- ==== Sys2Proof/Machine/Move.lean ====
section
/-! DEFINITION. Moves, stack, write-port and exchange (43_alu_move.md section 1). No flag is written. -/

namespace Sys2Proof.Machine

/-- `operand_open(); operand_write(ACC); operand_close()` (R220). -/
def storeAcc (o : Operand) (s : State) : State := o.store s.acc s

/-- `operand_open(); v <- operand_read(); operand_close()`, then `ACC <- v` (R232). -/
def loadAcc (o : Operand) (s : State) : State := (o.load s).dlToAcc

/-- The operand's value is read, then pushed (R221). -/
def pushOperand (o : Operand) (s : State) : State := (o.load s).pushDl

/-- The operand is opened, a Word popped, and written to the operand (R238). -/
def popOperand (o : Operand) (s : State) : State :=
  let popped := (o.stepBefore s).popDl
  o.writeBack s popped.dl popped

/-- The operand's value is the port, ACC the data: one `writePort` (R222). -/
def writePortOperand (o : Operand) (s : State) : State :=
  let s1 := o.load s
  ((s1.eaPort s1.dl).accToDl).stPort

/-- ACC goes to the operand and the old operand to ACC (R237). -/
def exchangeAcc (o : Operand) (s : State) : State :=
  let s1 := o.fetchForUpdate s
  { o.writeBack s s1.acc s1 with acc := s1.dl }

/-- MOV, register operand (R220). -/
def execMovRg (m : Mode) (r : RegNum) (s : State) : Host.Outcome State Fault Refusal :=
  .next (storeAcc (.rg m r) s)

/-- MOV, memory direct (R220). -/
def execMovMd (a : Word) (s : State) : Host.Outcome State Fault Refusal :=
  .next (storeAcc (.md a) s)

/-- PUSH, register operand (R221). -/
def execPushRg (m : Mode) (r : RegNum) (s : State) : Host.Outcome State Fault Refusal :=
  .next (pushOperand (.rg m r) s)

/-- PUSH, memory direct (R221). -/
def execPushMd (a : Word) (s : State) : Host.Outcome State Fault Refusal :=
  .next (pushOperand (.md a) s)

/-- PUSH, immediate (R221). -/
def execPushIm (k : Word) (s : State) : Host.Outcome State Fault Refusal :=
  .next (pushOperand (.im k) s)

/-- POP, register operand (R238). -/
def execPopRg (m : Mode) (r : RegNum) (s : State) : Host.Outcome State Fault Refusal :=
  .next (popOperand (.rg m r) s)

/-- OUTX, register operand (R222). -/
def execOutxRg (m : Mode) (r : RegNum) (s : State) : Host.Outcome State Fault Refusal :=
  .next (writePortOperand (.rg m r) s)

/-- OUTX, memory direct (R222). -/
def execOutxMd (a : Word) (s : State) : Host.Outcome State Fault Refusal :=
  .next (writePortOperand (.md a) s)

/-- OUTX, immediate (R222). -/
def execOutxIm (k : Word) (s : State) : Host.Outcome State Fault Refusal :=
  .next (writePortOperand (.im k) s)

/-- RD, register operand (R232). -/
def execRdRg (m : Mode) (r : RegNum) (s : State) : Host.Outcome State Fault Refusal :=
  .next (loadAcc (.rg m r) s)

/-- RD, memory direct (R232). -/
def execRdMd (a : Word) (s : State) : Host.Outcome State Fault Refusal :=
  .next (loadAcc (.md a) s)

/-- RD, immediate (R232). -/
def execRdIm (k : Word) (s : State) : Host.Outcome State Fault Refusal :=
  .next (loadAcc (.im k) s)

/-- XCH, register operand (R237). -/
def execXchRg (m : Mode) (r : RegNum) (s : State) : Host.Outcome State Fault Refusal :=
  .next (exchangeAcc (.rg m r) s)

end Sys2Proof.Machine
end

