-- ==== Sys2Proof/Machine/NonAddressed.lean ====
section
/-! DEFINITION. The non-addressed instructions (45_non_addressed.md) and the implicit halt (30_encoding.md R104). -/

namespace Sys2Proof.Machine

/-- NOP: nothing (R281). -/
def execNop (s : State) : Host.Outcome State Fault Refusal :=
  .next s

/-- RET: pop PCL; CS is not changed (R282). -/
def execRet (s : State) : Host.Outcome State Fault Refusal :=
  .next s.popDl.pclLoad

/-- IRET: restore CS and the six flags, then PCL, and clear the acknowledge (R283). -/
def execIret (s : State) : Host.Outcome State Fault Refusal :=
  .next s.interruptReturn

/-- EI (R284). -/
def execEi (s : State) : Host.Outcome State Fault Refusal :=
  .next (s.setFlag .i true)

/-- DI (R296). -/
def execDi (s : State) : Host.Outcome State Fault Refusal :=
  .next (s.setFlag .i false)

/-- RL (R285). -/
def execRl (s : State) : Host.Outcome State Fault Refusal :=
  .next (s.rotateAcc (rol s.acc))

/-- RR (R286). -/
def execRr (s : State) : Host.Outcome State Fault Refusal :=
  .next (s.rotateAcc (ror s.acc))

/-- RLC (R287). -/
def execRlc (s : State) : Host.Outcome State Fault Refusal :=
  .next (s.rotateAcc (rolc (s.flag .c) s.acc))

/-- RRC (R288). -/
def execRrc (s : State) : Host.Outcome State Fault Refusal :=
  .next (s.rotateAcc (rorc (s.flag .c) s.acc))

/-- HLT: RUN is cleared; the tick then makes no interrupt check (R289). -/
def execHlt (s : State) : Host.Outcome State Fault Refusal :=
  .next { s with run := false }

/-- DAA (R290). -/
def execDaa (s : State) : Host.Outcome State Fault Refusal :=
  accAdjust .daa (fun x => add8 x (bcdAdjustment x (s.flag .a) (s.flag .c))) s

/-- DSA (R291). -/
def execDsa (s : State) : Host.Outcome State Fault Refusal :=
  accAdjust .dsa (fun x => sub8 x (bcdAdjustment x (s.flag .a) (s.flag .c))) s

/-- LDF: all eight flags to ACC (R292). -/
def execLdf (s : State) : Host.Outcome State Fault Refusal :=
  .next { s with acc := s.flags }

/-- STF: all eight flags from ACC; DR is not written (R293). -/
def execStf (s : State) : Host.Outcome State Fault Refusal :=
  .next { s with flags := s.acc }

/-- INP: a placeholder with no effect (R294). -/
def execInp (s : State) : Host.Outcome State Fault Refusal :=
  .next s

/-- OUTP: a placeholder with no effect (R295). -/
def execOutp (s : State) : Host.Outcome State Fault Refusal :=
  .next s

/-- The implicit halt, the word `0x0000`: RUN is cleared and nothing else (R104). -/
def execImplicitHalt (s : State) : Host.Outcome State Fault Refusal :=
  .next { s with run := false }

end Sys2Proof.Machine
end

