-- ==== Sys2Proof/Machine/Dispatch.lean ====
section
/-! DEFINITION. The dispatcher: one arm per constructor of Instr (30_encoding.md R102, R103). -/

namespace Sys2Proof.Machine

/-- Run the handler of an instruction (R103). -/
def exec (i : Instr) (s : State) : Host.Outcome State Fault Refusal :=
  match i with
  | .movRg m r => Sys2Proof.Machine.execMovRg m r s
  | .pushRg m r => Sys2Proof.Machine.execPushRg m r s
  | .popRg m r => Sys2Proof.Machine.execPopRg m r s
  | .outxRg m r => Sys2Proof.Machine.execOutxRg m r s
  | .notRg m r => Sys2Proof.Machine.execNotRg m r s
  | .addRg m r => Sys2Proof.Machine.execAddRg m r s
  | .subRg m r => Sys2Proof.Machine.execSubRg m r s
  | .mulRg m r => Sys2Proof.Machine.execMulRg m r s
  | .divRg m r => Sys2Proof.Machine.execDivRg m r s
  | .andRg m r => Sys2Proof.Machine.execAndRg m r s
  | .orRg m r => Sys2Proof.Machine.execOrRg m r s
  | .xorRg m r => Sys2Proof.Machine.execXorRg m r s
  | .cmpRg m r => Sys2Proof.Machine.execCmpRg m r s
  | .rdRg m r => Sys2Proof.Machine.execRdRg m r s
  | .incRg m r => Sys2Proof.Machine.execIncRg m r s
  | .decRg m r => Sys2Proof.Machine.execDecRg m r s
  | .adcRg m r => Sys2Proof.Machine.execAdcRg m r s
  | .subbRg m r => Sys2Proof.Machine.execSubbRg m r s
  | .xchRg m r => Sys2Proof.Machine.execXchRg m r s
  | .movMd a => Sys2Proof.Machine.execMovMd a s
  | .pushMd a => Sys2Proof.Machine.execPushMd a s
  | .outxMd a => Sys2Proof.Machine.execOutxMd a s
  | .notMd a => Sys2Proof.Machine.execNotMd a s
  | .addMd a => Sys2Proof.Machine.execAddMd a s
  | .subMd a => Sys2Proof.Machine.execSubMd a s
  | .mulMd a => Sys2Proof.Machine.execMulMd a s
  | .divMd a => Sys2Proof.Machine.execDivMd a s
  | .andMd a => Sys2Proof.Machine.execAndMd a s
  | .orMd a => Sys2Proof.Machine.execOrMd a s
  | .xorMd a => Sys2Proof.Machine.execXorMd a s
  | .cmpMd a => Sys2Proof.Machine.execCmpMd a s
  | .rdMd a => Sys2Proof.Machine.execRdMd a s
  | .incMd a => Sys2Proof.Machine.execIncMd a s
  | .decMd a => Sys2Proof.Machine.execDecMd a s
  | .adcMd a => Sys2Proof.Machine.execAdcMd a s
  | .pushIm k => Sys2Proof.Machine.execPushIm k s
  | .outxIm k => Sys2Proof.Machine.execOutxIm k s
  | .addIm k => Sys2Proof.Machine.execAddIm k s
  | .subIm k => Sys2Proof.Machine.execSubIm k s
  | .mulIm k => Sys2Proof.Machine.execMulIm k s
  | .divIm k => Sys2Proof.Machine.execDivIm k s
  | .andIm k => Sys2Proof.Machine.execAndIm k s
  | .orIm k => Sys2Proof.Machine.execOrIm k s
  | .xorIm k => Sys2Proof.Machine.execXorIm k s
  | .cmpIm k => Sys2Proof.Machine.execCmpIm k s
  | .rdIm k => Sys2Proof.Machine.execRdIm k s
  | .adcIm k => Sys2Proof.Machine.execAdcIm k s
  | .jmp t => Sys2Proof.Machine.execJmp t s
  | .call t => Sys2Proof.Machine.execCall t s
  | .int n => Sys2Proof.Machine.execInt n s
  | .jz t => Sys2Proof.Machine.execJz t s
  | .jnz t => Sys2Proof.Machine.execJnz t s
  | .jc t => Sys2Proof.Machine.execJc t s
  | .jnc t => Sys2Proof.Machine.execJnc t s
  | .jn t => Sys2Proof.Machine.execJn t s
  | .jnn t => Sys2Proof.Machine.execJnn t s
  | .jo t => Sys2Proof.Machine.execJo t s
  | .jno t => Sys2Proof.Machine.execJno t s
  | .djrnz r t => Sys2Proof.Machine.execDjrnz r t s
  | .nop => Sys2Proof.Machine.execNop s
  | .ret => Sys2Proof.Machine.execRet s
  | .iret => Sys2Proof.Machine.execIret s
  | .ei => Sys2Proof.Machine.execEi s
  | .di => Sys2Proof.Machine.execDi s
  | .rl => Sys2Proof.Machine.execRl s
  | .rr => Sys2Proof.Machine.execRr s
  | .rlc => Sys2Proof.Machine.execRlc s
  | .rrc => Sys2Proof.Machine.execRrc s
  | .hlt => Sys2Proof.Machine.execHlt s
  | .daa => Sys2Proof.Machine.execDaa s
  | .dsa => Sys2Proof.Machine.execDsa s
  | .ldf => Sys2Proof.Machine.execLdf s
  | .stf => Sys2Proof.Machine.execStf s
  | .inp => Sys2Proof.Machine.execInp s
  | .outp => Sys2Proof.Machine.execOutp s
  | .clrb b a => Sys2Proof.Machine.execClrb b a s
  | .setb b a => Sys2Proof.Machine.execSetb b a s
  | .skbc b a => Sys2Proof.Machine.execSkbc b a s
  | .skbs b a => Sys2Proof.Machine.execSkbs b a s
  | .pclrb b p => Sys2Proof.Machine.execPclrb b p s
  | .psetb b p => Sys2Proof.Machine.execPsetb b p s
  | .pskbc b p => Sys2Proof.Machine.execPskbc b p s
  | .pskbs b p => Sys2Proof.Machine.execPskbs b p s
  | .inPort p => Sys2Proof.Machine.execInPort p s
  | .outPort p => Sys2Proof.Machine.execOutPort p s
  | .implicitHalt => Sys2Proof.Machine.execImplicitHalt s

end Sys2Proof.Machine
end

