-- ==== Sys2Proof/Machine/Tick.lean ====
section
/-! DEFINITION. One tick of the core (30_encoding.md R100 to R105, R121), and the host's actions at a tick boundary
(70_reset_and_hazards.md R376 to R381). -/

namespace Sys2Proof.Machine

/-- Apply a state change to the next state of an outcome. -/
def mapNext (f : State → State) : Host.Outcome State Fault Refusal → Host.Outcome State Fault Refusal
  | .next s => .next (f s)
  | .fault r => .fault r
  | .refused r => .refused r

/-- Steps (2) and (3) of a tick, after the fetch: decode the two latches and run the handler. A word that matches no
instruction runs none and sets UNREC (R102, R103, R121). Log 5. -/
def dispatch (s : State) : Host.Outcome State Fault Refusal :=
  match decode s.cr1 s.cr0 with
  | .ok i => exec i s
  | .error _ => .next { s with unrec := true }

/-- One tick: fetch, decode, execute, halt test, interrupt check, callback (R100). -/
def tick (s : State) : Host.Outcome State Fault Refusal := mapNext State.retire (dispatch s.fetch)

/-- Why a poke is turned away (R332, R380). -/
inductive PokeError where
  /-- A memory address above 1023. -/
  | addressOutOfRange
  /-- A register number above 7. -/
  | registerOutOfRange
  /-- A value too wide for its place: above 255 for a Word, above 3 for a segment register. -/
  | valueOutOfRange
  deriving DecidableEq, Repr

/-- The place a poke names exists (R380). -/
def PokeTarget.inRange : PokeTarget → Option PokeError
  | .memory a => if a < memSize then none else some .addressOutOfRange
  | .reg n => if n < 8 then none else some .registerOutOfRange
  | .acc => none
  | .dr => none
  | .flags => none
  | .ss => none
  | .ds => none
  | .cs => none
  | .pcl => none
  | .spl => none
  | .cr0 => none
  | .cr1 => none

/-- One more than the largest value a place holds (R380). -/
def PokeTarget.bound : PokeTarget → Nat
  | .ss => 4
  | .ds => 4
  | .cs => 4
  | .memory _ => 256
  | .reg _ => 256
  | .acc => 256
  | .dr => 256
  | .flags => 256
  | .pcl => 256
  | .spl => 256
  | .cr0 => 256
  | .cr1 => 256

/-- Write the named location, once the poke is in range (R380). -/
def State.pokeWrite (t : PokeTarget) (v : Nat) (s : State) : State :=
  match t with
  | .memory a => s.memWrite (BitVec.ofNat 10 a) (BitVec.ofNat 8 v)
  | .reg n => s.setReg (BitVec.ofNat 3 n) (BitVec.ofNat 8 v)
  | .acc => { s with acc := BitVec.ofNat 8 v }
  | .dr => { s with dr := BitVec.ofNat 8 v }
  | .flags => { s with flags := BitVec.ofNat 8 v }
  | .ss => { s with ss := BitVec.ofNat 2 v }
  | .ds => { s with ds := BitVec.ofNat 2 v }
  | .cs => { s with cs := BitVec.ofNat 2 v }
  | .pcl => { s with pcl := BitVec.ofNat 8 v }
  | .spl => { s with spl := BitVec.ofNat 8 v }
  | .cr0 => { s with cr0 := BitVec.ofNat 8 v }
  | .cr1 => { s with cr1 := BitVec.ofNat 8 v }

/-- A host poke (R380): in range it writes exactly the named location and calls `onStateChanged()`; out of range it is
rejected with a condition. -/
def State.poke (t : PokeTarget) (v : Nat) (s : State) : Except PokeError State :=
  match t.inRange with
  | some e => .error e
  | none => if v < t.bound then .ok ((s.pokeWrite t v).call .onStateChanged) else .error .valueOutOfRange

/-- The registers of the persisted layout, as an observer samples them at a tick boundary (R52, R381). -/
structure Snapshot where
  acc : Word
  dr : Word
  flags : Word
  ss : Seg
  ds : Seg
  cs : Seg
  pcl : Word
  spl : Word
  cr0 : Word
  cr1 : Word
  regs : Vector Word 8
  deriving DecidableEq, Repr

/-- The whole-state snapshot (R381). -/
def State.snapshot (s : State) : Snapshot :=
  { acc := s.acc, dr := s.dr, flags := s.flags, ss := s.ss, ds := s.ds, cs := s.cs, pcl := s.pcl, spl := s.spl
    cr0 := s.cr0, cr1 := s.cr1, regs := s.regs }

/-- Honour a host request at a tick boundary (R376). A rejected poke changes nothing (R380; log 16); a snapshot changes nothing
(R381); a step runs one tick and leaves RUN = 0 (R378). -/
def honour (r : HostRequest) (s : State) : Host.Outcome State Fault Refusal :=
  match r with
  | .reset => .next (s.resetSequence Config.resetVectorAddr)
  | .run => .next { s with run := true }
  | .stop => .next { s with run := false }
  | .step => mapNext (fun t => { t with run := false }) (tick { s with run := true })
  | .poke t v => .next (match s.poke t v with | .ok s' => s' | .error _ => s)
  | .snapshot => .next s

/-- The core with no host request to honour: a tick while RUN = 1, and nothing while RUN = 0 (R37, R100). -/
def runOrIdle (s : State) : Host.Outcome State Fault Refusal := if s.run then tick s else .next s

/-- What happens at a tick boundary: the host's request for it is honoured, else the core runs (R376, R377). Log 10. -/
def boundary (s : State) : Host.Outcome State Fault Refusal :=
  match s.host with
  | [] => runOrIdle s
  | none :: rest => runOrIdle { s with host := rest }
  | some r :: rest => honour r { s with host := rest }

/-- Put the two words of an instruction where the next step fetches them, with RUN set and no host request before it
(R101, R372). Log 11. -/
def State.placeInstruction (cr1 cr0 : Word) (s : State) : State :=
  { (s.memWrite (ea s.cs s.pcl) cr0).memWrite (ea s.cs (s.pcl + 1)) cr1 with run := true, host := [] }

end Sys2Proof.Machine
end

