-- ==== Sys2Proof/Machine/Step.lean ====
section
/-! DEFINITION. One step of the machine, and how an instruction is placed where the next step fetches it. -/

namespace Sys2Proof.Machine

/-- One step: a tick of the core, or the host's request for this tick boundary. -/
def step (s : State) : Host.Outcome State Fault Refusal := boundary s

/-- `s` with the instruction whose bits are `w` stored at the two offsets the next fetch reads, CR0 first (R65, R101): PCL
at 0x00, since after reset it is whatever Word IMAGE holds at the reset vector (R370), and the host's run request granted,
without which the core does not fetch (R37, R372). Log 11. -/
def State.withFetchWord (s : State) (nbits w : Nat) : State :=
  ({ s with pcl := 0x00 } : State).placeInstruction (BitVec.ofNat 8 (w % 2 ^ nbits / 256)) (BitVec.ofNat 8 (w % 2 ^ nbits))

end Sys2Proof.Machine
end

