-- ==== Sys2Proof/Safety.lean ====
section
/-! DEFINITION. The words the claims are stated in: what a run may observe, what an instruction leaves alone, which
instructions may write what, the invariant every step keeps, and the shapes of the results of the instruction families. -/

namespace Sys2Proof

/-! ## Instructions by mnemonic -/

/-- The mnemonics of 30_encoding.md R124, and the implicit halt (R104). -/
inductive Mnemonic where
  | mov
  | push
  | pop
  | outx
  | not
  | add
  | sub
  | mul
  | div
  | and
  | or
  | xor
  | cmp
  | rd
  | inc
  | dec
  | adc
  | subb
  | xch
  | jmp
  | call
  | int
  | jz
  | jnz
  | jc
  | jnc
  | jn
  | jnn
  | jo
  | jno
  | djrnz
  | nop
  | ret
  | iret
  | ei
  | di
  | rl
  | rr
  | rlc
  | rrc
  | hlt
  | daa
  | dsa
  | ldf
  | stf
  | inp
  | outp
  | clrb
  | setb
  | skbc
  | skbs
  | pclrb
  | psetb
  | pskbc
  | pskbs
  | inPort
  | outPort
  | implicitHalt
  deriving DecidableEq, Repr

/-- The mnemonic of an instruction. -/
def Instr.mnemonic : Instr → Mnemonic
  | .movRg _ _ => .mov
  | .pushRg _ _ => .push
  | .popRg _ _ => .pop
  | .outxRg _ _ => .outx
  | .notRg _ _ => .not
  | .addRg _ _ => .add
  | .subRg _ _ => .sub
  | .mulRg _ _ => .mul
  | .divRg _ _ => .div
  | .andRg _ _ => .and
  | .orRg _ _ => .or
  | .xorRg _ _ => .xor
  | .cmpRg _ _ => .cmp
  | .rdRg _ _ => .rd
  | .incRg _ _ => .inc
  | .decRg _ _ => .dec
  | .adcRg _ _ => .adc
  | .subbRg _ _ => .subb
  | .xchRg _ _ => .xch
  | .movMd _ => .mov
  | .pushMd _ => .push
  | .outxMd _ => .outx
  | .notMd _ => .not
  | .addMd _ => .add
  | .subMd _ => .sub
  | .mulMd _ => .mul
  | .divMd _ => .div
  | .andMd _ => .and
  | .orMd _ => .or
  | .xorMd _ => .xor
  | .cmpMd _ => .cmp
  | .rdMd _ => .rd
  | .incMd _ => .inc
  | .decMd _ => .dec
  | .adcMd _ => .adc
  | .pushIm _ => .push
  | .outxIm _ => .outx
  | .addIm _ => .add
  | .subIm _ => .sub
  | .mulIm _ => .mul
  | .divIm _ => .div
  | .andIm _ => .and
  | .orIm _ => .or
  | .xorIm _ => .xor
  | .cmpIm _ => .cmp
  | .rdIm _ => .rd
  | .adcIm _ => .adc
  | .jmp _ => .jmp
  | .call _ => .call
  | .int _ => .int
  | .jz _ => .jz
  | .jnz _ => .jnz
  | .jc _ => .jc
  | .jnc _ => .jnc
  | .jn _ => .jn
  | .jnn _ => .jnn
  | .jo _ => .jo
  | .jno _ => .jno
  | .djrnz _ _ => .djrnz
  | .nop => .nop
  | .ret => .ret
  | .iret => .iret
  | .ei => .ei
  | .di => .di
  | .rl => .rl
  | .rr => .rr
  | .rlc => .rlc
  | .rrc => .rrc
  | .hlt => .hlt
  | .daa => .daa
  | .dsa => .dsa
  | .ldf => .ldf
  | .stf => .stf
  | .inp => .inp
  | .outp => .outp
  | .clrb _ _ => .clrb
  | .setb _ _ => .setb
  | .skbc _ _ => .skbc
  | .skbs _ _ => .skbs
  | .pclrb _ _ => .pclrb
  | .psetb _ _ => .psetb
  | .pskbc _ _ => .pskbc
  | .pskbs _ _ => .pskbs
  | .inPort _ => .inPort
  | .outPort _ => .outPort
  | .implicitHalt => .implicitHalt

/-- The general register an instruction names in its words: `r` of formats RG and DJ (R107, R110). -/
def Instr.namedReg : Instr → Option RegNum
  | .movRg _ r => some r
  | .pushRg _ r => some r
  | .popRg _ r => some r
  | .outxRg _ r => some r
  | .notRg _ r => some r
  | .addRg _ r => some r
  | .subRg _ r => some r
  | .mulRg _ r => some r
  | .divRg _ r => some r
  | .andRg _ r => some r
  | .orRg _ r => some r
  | .xorRg _ r => some r
  | .cmpRg _ r => some r
  | .rdRg _ r => some r
  | .incRg _ r => some r
  | .decRg _ r => some r
  | .adcRg _ r => some r
  | .subbRg _ r => some r
  | .xchRg _ r => some r
  | .movMd _ => none
  | .pushMd _ => none
  | .outxMd _ => none
  | .notMd _ => none
  | .addMd _ => none
  | .subMd _ => none
  | .mulMd _ => none
  | .divMd _ => none
  | .andMd _ => none
  | .orMd _ => none
  | .xorMd _ => none
  | .cmpMd _ => none
  | .rdMd _ => none
  | .incMd _ => none
  | .decMd _ => none
  | .adcMd _ => none
  | .pushIm _ => none
  | .outxIm _ => none
  | .addIm _ => none
  | .subIm _ => none
  | .mulIm _ => none
  | .divIm _ => none
  | .andIm _ => none
  | .orIm _ => none
  | .xorIm _ => none
  | .cmpIm _ => none
  | .rdIm _ => none
  | .adcIm _ => none
  | .jmp _ => none
  | .call _ => none
  | .int _ => none
  | .jz _ => none
  | .jnz _ => none
  | .jc _ => none
  | .jnc _ => none
  | .jn _ => none
  | .jnn _ => none
  | .jo _ => none
  | .jno _ => none
  | .djrnz r _ => some r
  | .nop => none
  | .ret => none
  | .iret => none
  | .ei => none
  | .di => none
  | .rl => none
  | .rr => none
  | .rlc => none
  | .rrc => none
  | .hlt => none
  | .daa => none
  | .dsa => none
  | .ldf => none
  | .stf => none
  | .inp => none
  | .outp => none
  | .clrb _ _ => none
  | .setb _ _ => none
  | .skbc _ _ => none
  | .skbs _ _ => none
  | .pclrb _ _ => none
  | .psetb _ _ => none
  | .pskbc _ _ => none
  | .pskbs _ _ => none
  | .inPort _ => none
  | .outPort _ => none
  | .implicitHalt => none

namespace Machine

open Mnemonic in
/-- The instructions that may write ACC (10_state.md R48). -/
def accWriters : List Mnemonic :=
  [rd, inPort, add, sub, mul, div, and, or, xor, adc, subb, xch, rl, rr, rlc, rrc, daa, dsa, ldf]

open Mnemonic in
/-- The instructions that may write PCL besides the fetch (10_state.md R48). -/
def pclWriters : List Mnemonic :=
  [jmp, call, jz, jnz, jc, jnc, jn, jnn, jo, jno, djrnz, ret, iret, int, skbs, skbc, pskbs, pskbc]

open Mnemonic in
/-- The instructions that may write SPL (10_state.md R48). -/
def splWriters : List Mnemonic := [push, pop, call, ret, int, iret]

open Mnemonic in
/-- The instructions that may write CS (10_state.md R27, R28, R48). -/
def csWriters : List Mnemonic := [int, iret]

open Mnemonic in
/-- The instructions that end in a flag update (41_alu_flags.md R181): those that write DR and the snapshots. -/
def flagUpdaters : List Mnemonic :=
  [add, sub, mul, div, cmp, adc, subb, and, or, xor, not, inc, dec, daa, dsa]

open Mnemonic in
/-- The instructions that may write a cell of main memory (20_memory.md R64, 42_operands.md R208). -/
def memoryWriters : List Mnemonic := [mov, push, pop, not, inc, dec, xch, call, int, setb, clrb]

open Mnemonic in
/-- The instructions that call the device side (20_memory.md R64, 45_non_addressed.md R283). -/
def deviceCallers : List Mnemonic := [outx, inPort, outPort, psetb, pclrb, pskbs, pskbc, iret]

open Mnemonic in
/-- The instructions that may write a flag (10_state.md R31). -/
def flagWriters : Flag → List Mnemonic
  | .z => [add, sub, mul, div, cmp, adc, subb, and, or, xor, not, inc, dec, daa, dsa, iret, stf]
  | .n => [add, sub, mul, div, cmp, adc, subb, and, or, xor, not, inc, dec, daa, dsa, iret, stf]
  | .o => [add, sub, mul, div, cmp, adc, subb, and, or, xor, not, iret, stf]
  | .a => [add, sub, mul, div, cmp, adc, subb, and, or, xor, not, inc, dec, daa, dsa, iret, stf]
  | .c =>
    [add, sub, mul, div, cmp, adc, subb, and, or, xor, not, inc, dec, daa, dsa, rl, rr, rlc, rrc, iret, stf]
  | .i => [ei, di, int, iret, stf]
  | .u6 => [stf]
  | .u7 => [stf]

/-! ## What a claim looks at -/

/-- A state without main memory and without AL and DL, which are scratch between instructions (10_state.md R36). Two states
that agree on it agree on every other register, on the device side and on the host. -/
def State.settled (s : State) : State := { s with al := 0, dl := 0x00, mem := [] }

/-- Every cell of main memory reads as before. -/
def MemKept (s t : State) : Prop := ∀ x, t.memRead x = s.memRead x

/-- The cell at `x` holds `v`, and every other cell of main memory reads as before. -/
def MemStored (x : Addr) (v : Word) (s t : State) : Prop := ∀ y, t.memRead y = if y = x then v else s.memRead y

/-- If the operand is a cell it holds `v`, and every other cell of main memory reads as before. -/
def OperandCell (o : Operand) (v : Word) (s t : State) : Prop :=
  ∀ y, t.memRead y = if o.openLoc s = .mem y then v else s.memRead y

/-- Every register reads as before. -/
def RegsKept (s t : State) : Prop := ∀ q, t.reg q = s.reg q

/-- Every register reads as before but for the pointer step of the operand's form (42_operands.md R203, R204). -/
def RegsStepped (o : Operand) (s t : State) : Prop := ∀ q, t.reg q = (o.stepAfter (o.stepBefore s)).reg q

/-- If the operand is a register it holds `v`; every other register reads as before but for the pointer step. -/
def OperandReg (o : Operand) (v : Word) (s t : State) : Prop :=
  ∀ q, t.reg q = if o.openLoc s = .reg q then v else (o.stepAfter (o.stepBefore s)).reg q

/-- The five condition flags have these values; I, U6 and U7 are as before. -/
def FlagsAre (z n o a c : Bool) (s t : State) : Prop :=
  t.flag .z = z ∧ t.flag .n = n ∧ t.flag .o = o ∧ t.flag .a = a ∧ t.flag .c = c ∧
    t.flag .i = s.flag .i ∧ t.flag .u6 = s.flag .u6 ∧ t.flag .u7 = s.flag .u7

/-- The invariant of the machine: main memory is in canonical form (log 22), and between instructions no snapshot of the flags
controller is pending (41_alu_flags.md R190). -/
def Invariant (s : State) : Prop := Memory.wf s.mem = true ∧ s.preValid = false ∧ s.argValid = false

/-- The state without what no program can observe: the bus latches (10_state.md R36), DR (R22), the snapshots of the flags
controller (R38) and UNREC (R39). -/
def State.programView (s : State) : State :=
  { s with
    al := 0, dl := 0x00, dr := 0x00, pre := 0x00, arg := 0x00, preValid := false, argValid := false, unrec := false }

/-- The next state of an outcome, if it has one, as a program can observe it. -/
def outcomeView (o : Host.Outcome State Fault Refusal) : Host.Outcome State Fault Refusal := mapNext State.programView o

/-! ## Forms -/

/-- `P` holds of an instruction in its six operand forms: RG, MD and IM (42_operands.md R200). -/
def SixForms (rg : Mode → RegNum → Instr) (md im : Word → Instr) (P : Instr → Operand → Prop) : Prop :=
  (∀ m r, P (rg m r) (.rg m r)) ∧ (∀ a, P (md a) (.md a)) ∧ ∀ k, P (im k) (.im k)

/-- `P` holds of an instruction that writes its operand, in its five forms: RG and MD (30_encoding.md R115). -/
def FiveForms (rg : Mode → RegNum → Instr) (md : Word → Instr) (P : Instr → Operand → Prop) : Prop :=
  (∀ m r, P (rg m r) (.rg m r)) ∧ ∀ a, P (md a) (.md a)

/-- CR1 = `c` is the RG code of the instruction, whatever CR0 (30_encoding.md R107, R115). -/
def CodeRg (c : Word) (rg : Mode → RegNum → Instr) : Prop :=
  ∀ w, decode c w = .ok (rg (modeField w) (lowField w))

/-- CR1 = `c` is the code of an instruction whose only operand is CR0 (30_encoding.md R108, R109, R113). -/
def CodeWord (c : Word) (i : Word → Instr) : Prop := ∀ w, decode c w = .ok (i w)

/-- CR1 = `c` is the code of no instruction, whatever CR0 (30_encoding.md R115, R121). -/
def NoCode (c : Word) : Prop := ∀ w, ∃ e, decode c w = .error e

/-- CR1 = `c + b` is the code of a bit instruction on bit `b` (30_encoding.md R112, R118). -/
def CodeBit (c : Word) (i : BitIdx → Word → Instr) : Prop := ∀ b w, decode (c + b.setWidth 8) w = .ok (i b w)

/-- CR1 = `0000xxxx` with CR0 = `c` is the code of a non-addressed instruction (30_encoding.md R111, R117). -/
def CodeNa (c : Word) (i : Instr) : Prop := ∀ x : BitVec 4, decode (x.setWidth 8) c = .ok i

/-! ## Results of the families -/

/-- The instruction answers a next state, and `P` holds of it. -/
def Runs (i : Instr) (s : State) (P : State → Prop) : Prop := ∃ t, exec i s = .next t ∧ P t

/-- A two-operand instruction of the arithmetic category ran on ACC and the operand `o` (41_alu_flags.md R180 to R187):
`res` is its result, which goes to ACC unless it is a compare; O is by the one formula of R185, and the snapshots, DR and
the pointer step are as the rules say. No other register, no memory cell, no device and no other latch changed. -/
def ArithmeticResult (i : Instr) (o : Operand) (s : State) (acc res : Word) (a c : Bool) : Prop :=
  Runs i s fun t =>
    t.settled =
        { s with
          acc := acc, flags := t.flags, dr := t.flags, pre := s.acc, arg := o.value s, preValid := false
          argValid := false, regs := t.regs : State }.settled ∧
      FlagsAre (decide (res = 0)) (res.getLsbD 7)
        (s.acc.getLsbD 7 == (o.value s).getLsbD 7 && res.getLsbD 7 != s.acc.getLsbD 7) a c s t ∧
      RegsStepped o s t ∧ MemKept s t

/-- A two-operand instruction of the logical category ran (41_alu_flags.md R188): A, C and O are forced to false. -/
def LogicalResult (i : Instr) (o : Operand) (s : State) (res : Word) : Prop :=
  Runs i s fun t =>
    t.settled =
        { s with
          acc := res, flags := t.flags, dr := t.flags, pre := s.acc, arg := o.value s, preValid := false
          argValid := false, regs := t.regs : State }.settled ∧
      FlagsAre (decide (res = 0)) (res.getLsbD 7) false false false s t ∧ RegsStepped o s t ∧ MemKept s t

/-- A one-operand instruction ran in place on its operand (41_alu_flags.md R180, R190): the operand holds `res`, and
nothing else of registers and memory changed but for the pointer step. -/
def InPlaceResult (i : Instr) (o : Operand) (s : State) (res : Word) (ov a c : Bool) : Prop :=
  Runs i s fun t =>
    t.settled =
        { s with
          flags := t.flags, dr := t.flags, pre := o.value s, arg := 0x00, preValid := false, argValid := false
          regs := t.regs : State }.settled ∧
      FlagsAre (decide (res = 0)) (res.getLsbD 7) ov a c s t ∧ OperandReg o res s t ∧ OperandCell o res s t

/-- The instruction runs, its next state is `u` but for scratch, and no cell of memory changed. -/
def RegisterOnly (i : Instr) (s u : State) : Prop := Runs i s fun t => t.settled = u.settled ∧ MemKept s t

/-- The memory after the two pushes of an entry (60_exceptions.md R341): PCL at the first slot, the status word at the
second, every other cell as before. -/
def EntryPushed (s t : State) : Prop :=
  ∀ x,
    t.memRead x =
      if x = ea s.ss (s.spl - 2) then statusWord s.flags s.cs
      else if x = ea s.ss (s.spl - 1) then s.pcl else s.memRead x

/-- What an entry through vector `id` leaves (60_exceptions.md R341, R343), with the device side at `d`: two words pushed,
CR0 and CR1 the vector's two words as memory holds them after the pushes, in the code segment in force before, CS and PCL
from them, I cleared and the other flags as before. -/
def Entered (id : Nat) (d : DeviceSide) (s t : State) : Prop :=
  t.settled =
      { s with
        spl := s.spl - 2
        cr0 := t.memRead (ea s.cs (BitVec.ofNat 8 (id * 2)))
        cr1 := t.memRead (ea s.cs (BitVec.ofNat 8 (id * 2) + 1))
        cs := (t.memRead (ea s.cs (BitVec.ofNat 8 (id * 2) + 1))).extractLsb' 0 2
        pcl := t.memRead (ea s.cs (BitVec.ofNat 8 (id * 2)))
        flags := t.flags
        dev := d : State }.settled ∧
    (∀ f, t.flag f = if f = .i then false else s.flag f) ∧ EntryPushed s t

/-- From any state `u` whose stack still holds what the entry that led from `s` to `t` pushed, IRET goes back to where `s`
was: PCL, CS and SPL as in `s`, the six active flags as in `s`, U6 and U7 as in `u` (45_non_addressed.md R283). -/
def ReturnsTo (s t : State) : Prop :=
  ∀ u : State, u.ss = t.ss → u.spl = t.spl → u.memRead (ea t.ss t.spl) = t.memRead (ea t.ss t.spl) →
    u.memRead (ea t.ss (t.spl + 1)) = t.memRead (ea t.ss (t.spl + 1)) →
    Runs .iret u fun v =>
      v.pcl = s.pcl ∧ v.cs = s.cs ∧ v.spl = s.spl ∧
        ∀ f, v.flag f = if f = .u6 ∨ f = .u7 then u.flag f else s.flag f

/-- What reset leaves in the registers (10_state.md R49). -/
def ResetRegisters (s : State) : Prop :=
  s.acc = 0x00 ∧ (∀ q, s.reg q = 0x00) ∧ s.dr = 0x00 ∧ s.cr0 = 0x00 ∧ s.cr1 = 0x00 ∧ s.spl = 0x00 ∧
    s.cs = 0 ∧ s.ds = 2 ∧ s.ss = 3 ∧ s.flags = 0x00 ∧ s.pre = 0x00 ∧ s.arg = 0x00 ∧ s.preValid = false ∧
    s.argValid = false ∧ s.unrec = false ∧ s.run = false

end Machine

end Sys2Proof
end

