-- ==== Sys2Proof/Certificates/Slice0/Obligations.lean ====
section
/-! DEFINITION. The statements for the provers, in the words of Sys2Proof/Safety.lean. A statement about an instruction ends
in a next state for every state and every operand the instruction has, and names its encoding. AL and DL are scratch between
instructions (10_state.md R36): the statements leave them out, or equate them only with what the model leaves there (log 8). -/

open Sys2Proof Sys2Proof.Machine

/-! ## Encoding -/

/-- Decode undoes encode, for every instruction and every operand value (30_encoding.md R106 to R119). -/
def Obligations.DecodeOfEncode : Prop := ∀ i, decode (encode i).1 (encode i).2 = .ok i

/-- Encode undoes decode on every well-formed word: no other word encodes the same instruction (30_encoding.md R122). -/
def Obligations.EncodeOfDecode : Prop :=
  ∀ cr1 cr0, wellFormedWord cr1 cr0 = true → ∃ i, decode cr1 cr0 = .ok i ∧ encode i = (cr1, cr0)

/-- The words the decoder refuses are those 30_encoding.md R122 lists, and no others. -/
def Obligations.RefusedWordsAreThoseListed : Prop :=
  ∀ cr1 cr0, (∃ e, decode cr1 cr0 = .error e) ↔ unrecognised cr1 cr0 = true

/-- Ignored bits do not change the instruction selected (30_encoding.md R107, R110, R111, R122): bits 6 and 5 of CR0 in
format RG, and bit 7 outside slot 1; bit 3 of CR1 in format DJ; the low nibble of CR1 in format NA unless CR0 is zero. -/
def Obligations.IgnoredBitsSelectNothing : Prop :=
  (∀ cr1 cr0, inRegisterClass cr1 = true → decode cr1 (cr0 &&& 0x9F) = decode cr1 cr0) ∧
    (∀ cr1 cr0, inRegisterClass cr1 = true → cr1 ≠ 0x51 → decode cr1 (cr0 &&& 0x7F) = decode cr1 cr0) ∧
    (∀ (r : RegNum) (t : Word), decode (0x18 + r.setWidth 8) t = decode (0x10 + r.setWidth 8) t) ∧
    ∀ (x : BitVec 4) (w : Word), w ≠ 0 → decode (x.setWidth 8) w = decode 0x00 w

/-- A few words of spec/95_test_vectors.md section 2 decode to the instructions they stand for. -/
def Obligations.SampleWordsDecode : Prop :=
  decode 0x51 0x9A = .ok (.popRg .preDec 2) ∧ decode 0x5C 0x11 = .ok (.rdRg .postInc 1) ∧
    decode 0x61 0x80 = .ok (.pushMd 0x80) ∧ decode 0x7F 0x01 = .ok (.adcIm 0x01) ∧
    decode 0x27 0x70 = .ok (.jno 0x70) ∧ decode 0x19 0x20 = .ok (.djrnz 1 0x20) ∧ decode 0x0F 0x01 = .ok .nop ∧
    decode 0x93 0x40 = .ok (.skbc 3 0x40) ∧ decode 0xA7 0x20 = .ok (.pclrb 7 0x20) ∧
    decode 0xC1 0x20 = .ok (.outPort 0x20)

/-! ## The tick -/

/-- The fetch (30_encoding.md R101): CR0 from the cell at PCL, CR1 from the next offset, PCL two further, and nothing else
but AL. -/
def Obligations.FetchReadsTwoWords : Prop :=
  ∀ s : State,
    s.fetch.settled =
        { s with cr0 := s.memRead (ea s.cs s.pcl), cr1 := s.memRead (ea s.cs (s.pcl + 1)), pcl := s.pcl + 2 : State }.settled ∧
      MemKept s s.fetch

/-- When the two words at PCL decode to `i`, a step of a running machine at a boundary without a host request is `exec i`
on the fetched state, and then the end of the tick (30_encoding.md R100 to R103). -/
def Obligations.StepRunsTheDecodedInstruction : Prop :=
  ∀ (s : State) (i : Instr), s.run = true → s.host.headD none = none →
    decode (s.memRead (ea s.cs (s.pcl + 1))) (s.memRead (ea s.cs s.pcl)) = .ok i →
    step s = mapNext State.retire (exec i ({ s with host := s.host.tail : State }.fetch))

/-- The words of an instruction placed at CS and PCL are the ones the next step runs, wherever PCL and CS point, and
`withFetchWord` is such a placing (log 11: the PCL and the run request that go with it are the model's choice). -/
def Obligations.PlacedInstructionRuns : Prop :=
  ∀ (s : State) (i : Instr),
    let runs (t : State) : Prop := step t = mapNext State.retire (exec i t.fetch)
    runs (s.placeInstruction (encode i).1 (encode i).2) ∧
      runs (s.withFetchWord 16 ((encode i).1.toNat * 256 + (encode i).2.toNat))

/-- The end of a tick (30_encoding.md R100, R104, R105, 60_exceptions.md R345): with RUN clear or both latches zero the
machine stops and makes no interrupt check; else it makes one. Then it reports `onTick` (log 12 keeps the call). -/
def Obligations.TickEndsInHaltTestThenInterruptCheck : Prop :=
  ∀ s : State,
    s.retire =
      if s.run = false ∨ (s.cr0 = 0x00 ∧ s.cr1 = 0x00) then
        { s with run := false : State }.call (.onTick s.pcl s.cs false)
      else s.interruptCheck.call (.onTick s.interruptCheck.pcl s.interruptCheck.cs true)

/-- The interrupt check (60_exceptions.md R340, R341): with I clear nothing is asked and nothing changes; with I set and
no request only the question is asked; with a request the two pushes, the acknowledge and the vector follow. The device
side's answers are scripted or free (log 7). -/
def Obligations.InterruptCheckAcceptsOnlyWhenEnabled : Prop :=
  ∀ s : State,
    if s.flag .i = false then s.interruptCheck = s
    else if s.dev.pendingAnswer = false then s.interruptCheck = { s with dev := s.dev.askPending }
    else Entered s.dev.askPending.ackAnswer s.dev.askPending.askAck s s.interruptCheck

/-- A word the opcode map gives no meaning, at a boundary without a host request, runs no handler: the tick sets UNREC,
and goes on (30_encoding.md R121; that the model goes on is log 5). -/
def Obligations.UnrecognisedWordSetsTheConditionLatch : Prop :=
  ∀ s : State, s.run = true → s.host.headD none = none →
    unrecognised (s.memRead (ea s.cs (s.pcl + 1))) (s.memRead (ea s.cs s.pcl)) = true →
    step s = .next { { s with host := s.host.tail : State }.fetch with unrec := true : State }.retire

/-- The all-zero word, at a boundary without a host request, halts: RUN cleared, PCL two further, the latches zero, no
interrupt check, no condition (30_encoding.md R104, D28). -/
def Obligations.AllZeroWordHalts : Prop :=
  ∀ s : State, s.run = true → s.host.headD none = none →
    s.memRead (ea s.cs (s.pcl + 1)) = 0x00 → s.memRead (ea s.cs s.pcl) = 0x00 →
    ∃ t, step s = .next t ∧
      t.settled =
          { s with
            cr0 := 0x00, cr1 := 0x00, pcl := s.pcl + 2, run := false, host := s.host.tail
            dev := s.dev.record (.onTick (s.pcl + 2) s.cs false) : State }.settled ∧
        MemKept s t

/-! ## The host -/

/-- With RUN clear and no host request at this boundary nothing happens, also with no request queued at all: the core
does not start by itself (70_reset_and_hazards.md R372). Run, stop and snapshot change RUN at most; a step request runs
one tick and leaves RUN clear (10_state.md R37, 70_reset_and_hazards.md R376 to R378, R381; log 10 for the request
list). -/
def Obligations.HostRunStopStepSnapshot : Prop :=
  (∀ s : State, s.run = false → s.host.headD none = none → step s = .next { s with host := s.host.tail }) ∧
    ∀ (s : State) (rest : List (Option HostRequest)),
      step { s with host := some .run :: rest } = .next { s with run := true, host := rest } ∧
      step { s with host := some .stop :: rest } = .next { s with run := false, host := rest } ∧
      step { s with host := some .snapshot :: rest } = .next { s with host := rest } ∧
      step { s with host := some .step :: rest } =
        mapNext (fun t => { t with run := false }) (step { s with run := true, host := none :: rest })

/-- A host poke in range writes exactly the named place and reports it; out of range it changes nothing
(70_reset_and_hazards.md R380; logs 10, 12 and 16). -/
def Obligations.HostPokeWritesOnlyInRange : Prop :=
  ∀ (s : State) (rest : List (Option HostRequest)),
    let d := s.dev.record .onStateChanged
    let ask (p : PokeTarget) (v : Nat) := step { s with host := some (.poke p v) :: rest }
    (∀ (x : Addr) (v : Word), ∃ t, ask (.memory x.toNat) v.toNat = .next t ∧
        t.settled = { s with host := rest, dev := d : State }.settled ∧ MemStored x v s t) ∧
      (∀ (r : RegNum) (v : Word), ask (.reg r.toNat) v.toNat = .next { s.setReg r v with host := rest, dev := d }) ∧
      (∀ v : Word,
        ask .acc v.toNat = .next { s with acc := v, host := rest, dev := d } ∧
          ask .dr v.toNat = .next { s with dr := v, host := rest, dev := d } ∧
          ask .flags v.toNat = .next { s with flags := v, host := rest, dev := d } ∧
          ask .pcl v.toNat = .next { s with pcl := v, host := rest, dev := d } ∧
          ask .spl v.toNat = .next { s with spl := v, host := rest, dev := d } ∧
          ask .cr0 v.toNat = .next { s with cr0 := v, host := rest, dev := d } ∧
          ask .cr1 v.toNat = .next { s with cr1 := v, host := rest, dev := d }) ∧
      (∀ v : Seg,
        ask .cs v.toNat = .next { s with cs := v, host := rest, dev := d } ∧
          ask .ds v.toNat = .next { s with ds := v, host := rest, dev := d } ∧
          ask .ss v.toNat = .next { s with ss := v, host := rest, dev := d }) ∧
      (∀ x v, ask (.memory (1024 + x)) v = .next { s with host := rest }) ∧
      (∀ n v, ask (.reg (8 + n)) v = .next { s with host := rest }) ∧
      (∀ p v, ask p (256 + v) = .next { s with host := rest }) ∧
      ∀ v, ask .cs (4 + v) = .next { s with host := rest } ∧ ask .ds (4 + v) = .next { s with host := rest } ∧
        ask .ss (4 + v) = .next { s with host := rest }

/-! ## Reset -/

/-- The reset sequence, for any reset-vector address and from any state (10_state.md R49, 70_reset_and_hazards.md R370,
R371): the registers, PCL from the reset-vector cell, the cell after it zero and every other cell kept, `onReset`
called. A host reset request runs it. (The cell after it is cleared by decision D3, log 3; RUN is clear by decision
D29.) -/
def Obligations.ResetSequenceLeavesTheResetValues : Prop :=
  (∀ (rva : Fin 1023) (s : State),
    let t := s.resetSequence rva
    ResetRegisters t ∧ t.pcl = s.memRead (BitVec.ofNat 10 rva) ∧ MemStored (BitVec.ofNat 10 (rva + 1)) 0x00 s t ∧
      t.dev = s.dev.record .onReset ∧ t.host = s.host) ∧
    ∀ (s : State) (rest : List (Option HostRequest)),
      step { s with host := some .reset :: rest } =
        .next ({ s with host := rest : State }.resetSequence Config.resetVectorAddr)

/-- The reset state holds the reset values (10_state.md R49): PCL the word IMAGE has at the reset vector, the cell after
it zero (decision D3, log 3), every other cell what IMAGE has there (20_memory.md R61; log 1). The reset sequence
changes nothing of it but the record of calls and that the cleared cell becomes a written one (log 22); that AL and DL,
which the spec leaves unspecified, are the same again is the model's choice (log 8). -/
def Obligations.ResetStateHoldsTheResetValues : Prop :=
  ResetRegisters State.reset ∧ State.reset.pcl = Config.image (BitVec.ofNat 10 Config.resetVectorAddr) ∧
    (∀ x : Addr,
      State.reset.memRead x = if x = BitVec.ofNat 10 (Config.resetVectorAddr + 1) then 0x00 else Config.image x) ∧
    State.reset.resetSequence Config.resetVectorAddr =
      { State.reset with
        dev := State.reset.dev.record .onReset
        mem := [(Config.resetVectorAddr + 1, 0x00)] }

/-! ## The whole machine -/

/-- The invariant holds right after reset (20_memory.md R60 for the memory's form, log 22; 10_state.md R49). -/
def Obligations.ResetHasTheInvariant : Prop := Invariant State.reset

/-- Every step from a state with the invariant ends in a state with it: memory stays in canonical form and no snapshot of
the flags controller stays pending between ticks (41_alu_flags.md R190, R191). -/
def Obligations.StepKeepsTheInvariant : Prop := ∀ s t, Invariant s → step s = .next t → Invariant t

/-- Nothing traps and nothing is refused: every instruction in every state, and every step, answers a next state
(60_exceptions.md R330, 41_alu_flags.md R191). -/
def Obligations.EveryInstructionAndStepGoesOn : Prop :=
  (∀ i s, ∃ t, exec i s = .next t) ∧ ∀ s, ∃ t, step s = .next t

/-- A program cannot observe AL, DL, DR, the snapshots or UNREC: two states that differ in nothing else step to states
that differ in nothing else (10_state.md R22, R36, R38, R39). -/
def Obligations.ScratchDoesNotLeak : Prop :=
  ∀ s s' : State, s.programView = s'.programView → outcomeView (step s) = outcomeView (step s')

/-- No instruction writes a register but the one its words name (10_state.md R48). -/
def Obligations.OnlyTheNamedRegisterIsWritten : Prop :=
  ∀ i s q, ∃ t, exec i s = .next t ∧ (i.namedReg ≠ some q → t.reg q = s.reg q)

/-- Which instructions write which register other than R[n] (10_state.md R48): outside the lists each is kept. DS, SS,
UNREC and the host's requests are kept by all. -/
def Obligations.OnlyTheListedInstructionsWriteARegister : Prop :=
  ∀ i s, ∃ t, exec i s = .next t ∧
    (i.mnemonic ∉ accWriters → t.acc = s.acc) ∧ (i.mnemonic ∉ pclWriters → t.pcl = s.pcl) ∧
    (i.mnemonic ∉ splWriters → t.spl = s.spl) ∧ (i.mnemonic ∉ csWriters → t.cs = s.cs) ∧
    (i.mnemonic ∉ flagUpdaters → t.dr = s.dr ∧ t.pre = s.pre ∧ t.arg = s.arg) ∧
    (i.mnemonic ≠ .int → t.cr0 = s.cr0 ∧ t.cr1 = s.cr1) ∧
    (i.mnemonic ≠ .hlt ∧ i.mnemonic ≠ .implicitHalt → t.run = s.run) ∧
    (i.mnemonic ∉ deviceCallers → t.dev = s.dev) ∧
    t.ds = s.ds ∧ t.ss = s.ss ∧ t.unrec = s.unrec ∧ t.host = s.host

/-- No instruction writes a flag but those 10_state.md R31 lists for that flag. -/
def Obligations.OnlyTheListedInstructionsWriteAFlag : Prop :=
  ∀ i s f, ∃ t, exec i s = .next t ∧ (i.mnemonic ∉ flagWriters f → t.flag f = s.flag f)

/-- No instruction writes main memory but the eleven that store (20_memory.md R64, 42_operands.md R208). -/
def Obligations.OnlyTheListedInstructionsWriteMemory : Prop :=
  ∀ i s, ∃ t, exec i s = .next t ∧ (i.mnemonic ∉ memoryWriters → MemKept s t)

/-! ## Operands and words -/

/-- The six operand forms (42_operands.md R201 to R206, R209; that `@-Rn` decrements first and uses the new value is
decision D13, the wrap decision D5): the place each names, the value it has, and the pointer step, which is the only
change of a register that finding an operand makes. -/
def Obligations.OperandFormsNameTheirPlace : Prop :=
  ∀ (s : State) (r q : RegNum) (a k : Word),
    let stepped (o : Operand) := (o.stepAfter (o.stepBefore s)).reg q
    ((Operand.rg .direct r).openLoc s = .reg r ∧ (Operand.rg .direct r).value s = s.reg r ∧
        stepped (.rg .direct r) = s.reg q) ∧
      ((Operand.rg .indirect r).openLoc s = .mem (ea s.ds (s.reg r)) ∧
        (Operand.rg .indirect r).value s = s.memRead (ea s.ds (s.reg r)) ∧ stepped (.rg .indirect r) = s.reg q) ∧
      ((Operand.rg .postInc r).openLoc s = .mem (ea s.ds (s.reg r)) ∧
        (Operand.rg .postInc r).value s = s.memRead (ea s.ds (s.reg r)) ∧
        stepped (.rg .postInc r) = if q = r then s.reg r + 1 else s.reg q) ∧
      ((Operand.rg .preDec r).openLoc s = .mem (ea s.ds (s.reg r - 1)) ∧
        (Operand.rg .preDec r).value s = s.memRead (ea s.ds (s.reg r - 1)) ∧
        stepped (.rg .preDec r) = if q = r then s.reg r - 1 else s.reg q) ∧
      ((Operand.md a).openLoc s = .mem (ea s.ds a) ∧ (Operand.md a).value s = s.memRead (ea s.ds a) ∧
        stepped (.md a) = s.reg q) ∧
      (Operand.im k).openLoc s = .imm k ∧ (Operand.im k).value s = k ∧ stepped (.im k) = s.reg q

/-- Adding and then subtracting a Word gives the first Word back, and the borrow is the carry (41_alu_flags.md R178). -/
def Obligations.SubtractUndoesAdd : Prop :=
  ∀ a b, (sub8 (add8 a b).1 b).1 = a ∧ (sub8 (add8 a b).1 b).2 = (add8 a b).2

/-- The layout of the status word (60_exceptions.md R342, D7): CS in bits 1..0, the six active flags above it, U6 and U7
left out. -/
def Obligations.StatusWordHoldsSegmentAndFlags : Prop :=
  ∀ (w : Word) (cs : Seg),
    (statusWord w cs).toNat = cs.toNat + 4 * (w.toNat % 64) ∧
      ∀ f, f ≠ .u6 → f ≠ .u7 → (statusWord w cs).getLsbD (f.pos + 2) = flagOf f w

/-! ## Moves (43_alu_move.md section 1) -/

/-- MOV stores ACC in its operand, and has no immediate form (R220). -/
def Obligations.MovStoresAcc : Prop :=
  FiveForms .movRg .movMd (fun i o => ∀ s, Runs i s fun t =>
      t.settled = { s with regs := t.regs : State }.settled ∧ OperandReg o s.acc s t ∧ OperandCell o s.acc s t) ∧
    CodeRg 0x50 .movRg ∧ CodeWord 0x60 .movMd ∧ NoCode 0x70

/-- PUSH puts the operand's value on the stack (R221). -/
def Obligations.PushStoresTheOperandOnTheStack : Prop :=
  SixForms .pushRg .pushMd .pushIm (fun i o => ∀ s, Runs i s fun t =>
      t.settled = { s with spl := s.spl - 1, regs := t.regs : State }.settled ∧ RegsStepped o s t ∧
        MemStored (ea s.ss (s.spl - 1)) (o.value s) s t) ∧
    (∀ w : Word, w.getLsbD 7 = false → decode 0x51 w = .ok (.pushRg (modeField w) (lowField w))) ∧
    CodeWord 0x61 .pushMd ∧ CodeWord 0x71 .pushIm

/-- POP takes the top of the stack into its operand (R238). -/
def Obligations.PopLoadsTheOperandFromTheStack : Prop :=
  (∀ m r s, Runs (.popRg m r) s fun t =>
      t.settled = { s with spl := s.spl + 1, regs := t.regs : State }.settled ∧
        OperandReg (.rg m r) (s.memRead (ea s.ss s.spl)) s t ∧ OperandCell (.rg m r) (s.memRead (ea s.ss s.spl)) s t) ∧
    ∀ w : Word, w.getLsbD 7 = true → decode 0x51 w = .ok (.popRg (modeField w) (lowField w))

/-- POP after PUSH of the same register gives the register and SPL back, whatever happened to the other registers, as long
as the pushed cell was not written (R221, R238). -/
def Obligations.PopUndoesPush : Prop :=
  ∀ r s, ∃ t, exec (.pushRg .direct r) s = .next t ∧
    ∀ u : State, u.ss = t.ss → u.spl = t.spl → u.memRead (ea t.ss t.spl) = t.memRead (ea t.ss t.spl) →
      Runs (.popRg .direct r) u fun v => v.reg r = s.reg r ∧ v.spl = s.spl

/-- OUTX writes ACC to the port that its operand names, in one call (R222; that the operand is the address and ACC the
data is decision D23). -/
def Obligations.OutxWritesAccToThePort : Prop :=
  SixForms .outxRg .outxMd .outxIm (fun i o => ∀ s, Runs i s fun t =>
      t.settled = { s with regs := t.regs, dev := s.dev.record (.writePort (o.value s) s.acc) : State }.settled ∧
        RegsStepped o s t ∧ MemKept s t) ∧
    CodeRg 0x52 .outxRg ∧ CodeWord 0x62 .outxMd ∧ CodeWord 0x72 .outxIm

/-- RD loads ACC from its operand (R232). -/
def Obligations.RdLoadsAcc : Prop :=
  SixForms .rdRg .rdMd .rdIm (fun i o => ∀ s, Runs i s fun t =>
      t.settled = { s with acc := o.value s, regs := t.regs : State }.settled ∧ RegsStepped o s t ∧ MemKept s t) ∧
    CodeRg 0x5C .rdRg ∧ CodeWord 0x6C .rdMd ∧ CodeWord 0x7C .rdIm

/-- XCH swaps ACC and its operand (R237). -/
def Obligations.XchSwapsAccAndOperand : Prop :=
  (∀ m r s, Runs (.xchRg m r) s fun t =>
      t.settled = { s with acc := (Operand.rg m r).value s, regs := t.regs : State }.settled ∧
        OperandReg (.rg m r) s.acc s t ∧ OperandCell (.rg m r) s.acc s t) ∧
    CodeRg 0xF1 .xchRg

/-! ## Arithmetic category (43_alu_move.md section 2) -/

/-- ADD (R224). -/
def Obligations.AddResult : Prop :=
  SixForms .addRg .addMd .addIm (fun i o => ∀ s : State,
      let x := s.acc.toNat
      let v := (o.value s).toNat
      ArithmeticResult i o s (BitVec.ofNat 8 (x + v)) (BitVec.ofNat 8 (x + v)) (decide (x % 16 + v % 16 > 15))
        (decide (x + v > 255))) ∧
    CodeRg 0x54 .addRg ∧ CodeWord 0x64 .addMd ∧ CodeWord 0x74 .addIm

/-- SUB and CMP (R225, R231): the difference modulo 256, C the borrow, O by the formula of ADD; SUB writes ACC, CMP
keeps it and has the flags of SUB. -/
def Obligations.SubAndCmpResults : Prop :=
  let differ (kept : Bool) (i : Instr) (o : Operand) : Prop := ∀ s : State,
    let x := s.acc.toNat
    let v := (o.value s).toNat
    let res := BitVec.ofNat 8 (x + 256 - v)
    ArithmeticResult i o s (if kept then s.acc else res) res (decide (x % 16 < v % 16)) (decide (x < v))
  (SixForms .subRg .subMd .subIm (differ false) ∧ CodeRg 0x55 .subRg ∧ CodeWord 0x65 .subMd ∧ CodeWord 0x75 .subIm) ∧
    SixForms .cmpRg .cmpMd .cmpIm (differ true) ∧ CodeRg 0x5B .cmpRg ∧ CodeWord 0x6B .cmpMd ∧ CodeWord 0x7B .cmpIm

/-- ADC and SUBB (R235, R236): the carry-in enters the sum, the half-carry and the report, and takes no part in O; SUBB
has register-operand forms only. -/
def Obligations.AdcAndSubbResults : Prop :=
  (SixForms .adcRg .adcMd .adcIm (fun i o => ∀ s : State,
      let x := s.acc.toNat
      let v := (o.value s).toNat
      let c := (s.flag .c).toNat
      let res := BitVec.ofNat 8 (x + v + c)
      ArithmeticResult i o s res res (decide (x % 16 + v % 16 + c > 15)) (decide (x + v + c > 255))) ∧
      CodeRg 0x5F .adcRg ∧ CodeWord 0x6F .adcMd ∧ CodeWord 0x7F .adcIm) ∧
    (∀ m r s,
      let x := s.acc.toNat
      let v := ((Operand.rg m r).value s).toNat
      let c := (s.flag .c).toNat
      let res := BitVec.ofNat 8 (x + 256 - v - c)
      ArithmeticResult (.subbRg m r) (.rg m r) s res res (decide (x % 16 < v % 16 + c)) (decide (x < v + c))) ∧
    CodeRg 0xF0 .subbRg

/-- MUL and DIV (R226, R227; unsigned and truncating by the spec's general knowledge G3 and decision D24, log 18): the
low half of the product; the quotient, or with a zero divisor the free value `DIV0` of the dividend, of which nothing is
known (log 6). Flags from whichever result it is; A and C false by decision D24. -/
def Obligations.MulAndDivResults : Prop :=
  (SixForms .mulRg .mulMd .mulIm (fun i o => ∀ s : State,
      let res := BitVec.ofNat 8 (s.acc.toNat * (o.value s).toNat)
      ArithmeticResult i o s res res false false) ∧
      CodeRg 0x56 .mulRg ∧ CodeWord 0x66 .mulMd ∧ CodeWord 0x76 .mulIm) ∧
    SixForms .divRg .divMd .divIm (fun i o => ∀ s : State,
      let res := if o.value s = 0 then Config.div0 s.acc else BitVec.ofNat 8 (s.acc.toNat / (o.value s).toNat)
      ArithmeticResult i o s res res false false) ∧
    CodeRg 0x57 .divRg ∧ CodeWord 0x67 .divMd ∧ CodeWord 0x77 .divIm

/-! ## Logical category (43_alu_move.md section 3) -/

/-- AND, OR and XOR (R228 to R230): bit by bit, with A, C and O forced to false. -/
def Obligations.LogicResults : Prop :=
  (SixForms .andRg .andMd .andIm (fun i o => ∀ s, LogicalResult i o s (s.acc &&& o.value s)) ∧
      CodeRg 0x58 .andRg ∧ CodeWord 0x68 .andMd ∧ CodeWord 0x78 .andIm) ∧
    (SixForms .orRg .orMd .orIm (fun i o => ∀ s, LogicalResult i o s (s.acc ||| o.value s)) ∧
      CodeRg 0x59 .orRg ∧ CodeWord 0x69 .orMd ∧ CodeWord 0x79 .orIm) ∧
    SixForms .xorRg .xorMd .xorIm (fun i o => ∀ s, LogicalResult i o s (s.acc ^^^ o.value s)) ∧
    CodeRg 0x5A .xorRg ∧ CodeWord 0x6A .xorMd ∧ CodeWord 0x7A .xorIm

/-- NOT inverts its operand in place, and has no immediate form (R223; in place by decision D25). -/
def Obligations.NotResult : Prop :=
  FiveForms .notRg .notMd (fun i o => ∀ s : State,
      InPlaceResult i o s (BitVec.ofNat 8 (255 - (o.value s).toNat)) false false false) ∧
    CodeRg 0x53 .notRg ∧ CodeWord 0x63 .notMd ∧ NoCode 0x73

/-! ## Increment/adjust category -/

/-- INC and DEC in place on the operand (R233, R234): O kept, no immediate form. -/
def Obligations.IncDecResults : Prop :=
  (FiveForms .incRg .incMd (fun i o => ∀ s : State,
      let v := (o.value s).toNat
      InPlaceResult i o s (BitVec.ofNat 8 (v + 1)) (s.flag .o) (decide (v % 16 = 15)) (decide (v = 255))) ∧
      CodeRg 0x5D .incRg ∧ CodeWord 0x6D .incMd ∧ NoCode 0x7D) ∧
    FiveForms .decRg .decMd (fun i o => ∀ s : State,
      let v := (o.value s).toNat
      InPlaceResult i o s (BitVec.ofNat 8 (v + 255)) (s.flag .o) (decide (v % 16 = 0)) (decide (v = 0))) ∧
    CodeRg 0x5E .decRg ∧ CodeWord 0x6E .decMd ∧ NoCode 0x7E

/-- DAA and DSA (45_non_addressed.md R290, R291; the arithmetic is the spec's general knowledge G1, log 18): the
adjustment chosen from ACC, A and C, added or subtracted; A set if the low nibble changed, C the report, O kept. -/
def Obligations.DecimalAdjustResults : Prop :=
  ∀ s : State,
    let x := s.acc.toNat
    let adj :=
      (if x % 16 > 9 ∨ s.flag .a = true then 0x06 else 0) + (if x > 0x99 ∨ s.flag .c = true then 0x60 else 0)
    let ran (i : Instr) (res : Word) (c : Bool) :=
      Runs i s fun t =>
        t.settled =
            { s with
              acc := res, flags := t.flags, dr := t.flags, pre := s.acc, arg := 0x00, preValid := false
              argValid := false : State }.settled ∧
          FlagsAre (decide (res = 0)) (res.getLsbD 7) (s.flag .o) (decide (res.toNat % 16 ≠ x % 16)) c s t ∧ MemKept s t
    ran .daa (BitVec.ofNat 8 (x + adj)) (decide (x + adj > 255)) ∧
      ran .dsa (BitVec.ofNat 8 (x + 256 - adj)) (decide (x < adj)) ∧ CodeNa 0x0B .daa ∧ CodeNa 0x0C .dsa

/-! ## Control transfer (44_control.md) -/

/-- JMP and the eight conditional jumps (R250, R253 to R260): the target, for a conditional jump only if its flag has the
value, and nothing else. -/
def Obligations.JumpsLoadPclOnTheirCondition : Prop :=
  (∀ (t : Word) (s : State),
    let dest (b : Bool) : State := if b then { s with pcl := t } else s
    RegisterOnly (.jmp t) s (dest true) ∧ RegisterOnly (.jz t) s (dest (s.flag .z)) ∧
      RegisterOnly (.jnz t) s (dest (!s.flag .z)) ∧ RegisterOnly (.jc t) s (dest (s.flag .c)) ∧
      RegisterOnly (.jnc t) s (dest (!s.flag .c)) ∧ RegisterOnly (.jn t) s (dest (s.flag .n)) ∧
      RegisterOnly (.jnn t) s (dest (!s.flag .n)) ∧ RegisterOnly (.jo t) s (dest (s.flag .o)) ∧
      RegisterOnly (.jno t) s (dest (!s.flag .o))) ∧
    CodeWord 0x40 .jmp ∧ CodeWord 0x20 .jz ∧ CodeWord 0x21 .jnz ∧ CodeWord 0x22 .jc ∧ CodeWord 0x23 .jnc ∧
    CodeWord 0x24 .jn ∧ CodeWord 0x25 .jnn ∧ CodeWord 0x26 .jo ∧ CodeWord 0x27 .jno

/-- DJRNZ (R262): the register one less, no flag written, the jump taken unless it became zero. -/
def Obligations.DjrnzDecrementsAndBranches : Prop :=
  (∀ r t s, Runs (.djrnz r t) s fun u =>
      u.settled =
          { s with pcl := if s.reg r = 1 then s.pcl else t, regs := u.regs : State }.settled ∧
        (∀ q, u.reg q = if q = r then s.reg r - 1 else s.reg q) ∧ MemKept s u) ∧
    ∀ r t, decode (0x10 + r.setWidth 8) t = .ok (.djrnz r t)

/-- CALL (R251): the return offset pushed, the target in PCL, CS kept. -/
def Obligations.CallPushesTheReturnOffset : Prop :=
  (∀ a s, Runs (.call a) s fun t =>
      t.settled = { s with spl := s.spl - 1, pcl := a : State }.settled ∧ MemStored (ea s.ss (s.spl - 1)) s.pcl s t) ∧
    CodeWord 0x41 .call

/-- RET (45_non_addressed.md R282): PCL popped, CS kept. -/
def Obligations.RetPopsPcl : Prop :=
  (∀ s, RegisterOnly .ret s { s with spl := s.spl + 1, pcl := s.memRead (ea s.ss s.spl) }) ∧ CodeNa 0x02 .ret

/-- RET after CALL gives PCL and SPL back, whatever the subroutine did, as long as SPL, SS and the pushed cell are as CALL
left them (R251, R282). -/
def Obligations.RetUndoesCall : Prop :=
  ∀ a s, ∃ t, exec (.call a) s = .next t ∧
    ∀ u : State, u.ss = t.ss → u.spl = t.spl → u.memRead (ea t.ss t.spl) = t.memRead (ea t.ss t.spl) →
      Runs .ret u fun v => v.pcl = s.pcl ∧ v.spl = s.spl ∧ v.cs = u.cs

/-- INT (R252): the two pushes and vector `n`; no call of the device side (decision D30). -/
def Obligations.IntEntersThroughItsVector : Prop :=
  (∀ n s, Runs (.int n) s (Entered n.toNat s.dev s)) ∧ CodeWord 0x42 .int

/-- IRET (45_non_addressed.md R283): CS and the six flags from the status word, U6 and U7 kept (decision D37), PCL popped,
the acknowledge cleared in one call. -/
def Obligations.IretRestoresFlagsSegmentAndPcl : Prop :=
  (∀ s : State,
    let w := s.memRead (ea s.ss s.spl)
    Runs .iret s fun t =>
      t.settled =
          { s with
            spl := s.spl + 2, cs := w.extractLsb' 0 2, pcl := s.memRead (ea s.ss (s.spl + 1)), flags := t.flags
            dev := s.dev.record .clearInterruptAcknowledge : State }.settled ∧
        (∀ f, t.flag f = if f = .u6 ∨ f = .u7 then s.flag f else w.getLsbD (f.pos + 2)) ∧ MemKept s t) ∧
    CodeNa 0x03 .iret

/-- IRET goes back from INT and from an accepted interrupt: PCL, CS, SPL and the six flags exactly as they were (R252,
60_exceptions.md R341, R346, 45_non_addressed.md R283). -/
def Obligations.IretUndoesTheEntry : Prop :=
  (∀ n s, ∃ t, exec (.int n) s = .next t ∧ ReturnsTo s t) ∧ ∀ s : State, ReturnsTo s s.accept

/-! ## Non-addressed instructions (45_non_addressed.md) -/

/-- NOP, INP and OUTP do nothing: no register, no cell, no call (R281, R294, R295; INP and OUTP by decision D20). -/
def Obligations.NopInpOutpDoNothing : Prop :=
  (∀ s, RegisterOnly .nop s s ∧ RegisterOnly .inp s s ∧ RegisterOnly .outp s s) ∧
    CodeNa 0x01 .nop ∧ CodeNa 0x0F .inp ∧ CodeNa 0x10 .outp

/-- EI and DI write flag I and no other (R284, R296). -/
def Obligations.EiDiWriteOnlyI : Prop :=
  (∀ s : State,
    let ran (i : Instr) (v : Bool) :=
      Runs i s fun t =>
        t.settled = { s with flags := t.flags : State }.settled ∧ (∀ f, t.flag f = if f = .i then v else s.flag f) ∧
          MemKept s t
    ran .ei true ∧ ran .di false) ∧
    CodeNa 0x04 .ei ∧ CodeNa 0x05 .di

/-- The four rotates of ACC, bit by bit (R285 to R288; the exact bit movement is the spec's general knowledge G2 and
decision D17, log 18): C gets the bit moved out, and no other flag changes. -/
def Obligations.RotatesMoveEachBitByOne : Prop :=
  (∀ s : State,
    let ran (i : Instr) (bit : Nat → Bool) (out : Bool) :=
      Runs i s fun t =>
        t.settled = { s with acc := t.acc, flags := t.flags : State }.settled ∧
          (∀ k, k < 8 → t.acc.getLsbD k = bit k) ∧ (∀ f, t.flag f = if f = .c then out else s.flag f) ∧ MemKept s t
    ran .rl (fun k => s.acc.getLsbD ((k + 7) % 8)) (s.acc.getLsbD 7) ∧
      ran .rr (fun k => s.acc.getLsbD ((k + 1) % 8)) (s.acc.getLsbD 0) ∧
      ran .rlc (fun k => if k = 0 then s.flag .c else s.acc.getLsbD (k - 1)) (s.acc.getLsbD 7) ∧
      ran .rrc (fun k => if k = 7 then s.flag .c else s.acc.getLsbD (k + 1)) (s.acc.getLsbD 0)) ∧
    CodeNa 0x06 .rl ∧ CodeNa 0x07 .rr ∧ CodeNa 0x08 .rlc ∧ CodeNa 0x09 .rrc

/-- HLT and the implicit halt clear RUN and change nothing else (R289, 30_encoding.md R104, decision D28; log 15 for the
halt as an instruction of the model). -/
def Obligations.HaltsClearRun : Prop :=
  (∀ s, RegisterOnly .hlt s { s with run := false } ∧ RegisterOnly .implicitHalt s { s with run := false }) ∧
    CodeNa 0x0A .hlt ∧ decode 0x00 0x00 = .ok .implicitHalt

/-- LDF copies all eight flags to ACC, STF all eight back; DR is kept (R292, R293, decision D19). -/
def Obligations.LdfStfTransferAllFlags : Prop :=
  (∀ s, RegisterOnly .ldf s { s with acc := s.flags } ∧ RegisterOnly .stf s { s with flags := s.acc }) ∧
    CodeNa 0x0D .ldf ∧ CodeNa 0x0E .stf

/-! ## Bit instructions and ports (46_bit_port.md) -/

/-- SETB and CLRB write one bit of one cell of the data segment (R310, R311). -/
def Obligations.SetbClrbWriteOneBit : Prop :=
  (∀ b a s,
    let x := ea s.ds a
    let ran (i : Instr) (v : Bool) :=
      Runs i s fun t =>
        t.settled = s.settled ∧ (∀ y, y ≠ x → t.memRead y = s.memRead y) ∧
          ∀ k, (t.memRead x).getLsbD k = if k = b.toNat then v else (s.memRead x).getLsbD k
    ran (.setb b a) true ∧ ran (.clrb b a) false) ∧
    CodeBit 0x88 .setb ∧ CodeBit 0x80 .clrb

/-- SKBS and SKBC skip one instruction on a bit of a cell of the data segment (R312, R313). -/
def Obligations.SkbsSkbcSkipOnTheBit : Prop :=
  (∀ b a s,
    let bit := (s.memRead (ea s.ds a)).getLsbD b.toNat
    RegisterOnly (.skbs b a) s { s with pcl := if bit = true then s.pcl + 2 else s.pcl } ∧
      RegisterOnly (.skbc b a) s { s with pcl := if bit = false then s.pcl + 2 else s.pcl }) ∧
    CodeBit 0x98 .skbs ∧ CodeBit 0x90 .skbc

/-- PSETB and PCLRB make one single-bit write of a port, and no read (R314, R315). -/
def Obligations.PsetbPclrbCallOnce : Prop :=
  (∀ b p s,
    RegisterOnly (.psetb b p) s { s with dev := s.dev.record (.writePortBit p b true) } ∧
      RegisterOnly (.pclrb b p) s { s with dev := s.dev.record (.writePortBit p b false) }) ∧
    CodeBit 0xA8 .psetb ∧ CodeBit 0xA0 .pclrb

/-- PSKBS and PSKBC ask the port for one bit, in one call, and skip on it (R316, R317). The bit is whatever the device
side answers: scripted, or free (log 7). -/
def Obligations.PskbsPskbcSkipOnThePortBit : Prop :=
  (∀ b p s,
    let bit := s.dev.bitAnswer p b
    let d := s.dev.askBit p b
    d.calls = .readPortBit p b bit :: s.dev.calls ∧
      RegisterOnly (.pskbs b p) s { s with dev := d, pcl := if bit = true then s.pcl + 2 else s.pcl } ∧
      RegisterOnly (.pskbc b p) s { s with dev := d, pcl := if bit = false then s.pcl + 2 else s.pcl }) ∧
    CodeBit 0xB8 .pskbs ∧ CodeBit 0xB0 .pskbc

/-- IN loads ACC with what the port answers to one read; OUT writes ACC to the port in one call (R318, R319). The answer
is whatever the device side gives: scripted, or free (log 7). -/
def Obligations.InOutCallThePortOnce : Prop :=
  (∀ p s,
    (s.dev.askWord p).calls = .readPort p (s.dev.wordAnswer p) :: s.dev.calls ∧
      RegisterOnly (.inPort p) s { s with acc := s.dev.wordAnswer p, dev := s.dev.askWord p } ∧
      RegisterOnly (.outPort p) s { s with dev := s.dev.record (.writePort p s.acc) }) ∧
    CodeWord 0xC0 .inPort ∧ CodeWord 0xC1 .outPort
end

