-- ==== Sys2Proof/Laws/Flags.lean ====
section
/-! SUPPORT. What the bit operations and the flags controller do, said once (41_alu_flags.md). -/

namespace Sys2Proof.Machine

/-- A bit of a Word after one bit was written. -/
theorem getLsbD_setBit (w : Word) (v : Bool) (i j : Nat) (hi : i < 8) :
    (setBit i v w).getLsbD j = if j = i then v else w.getLsbD j := by
  by_cases hj : j < 8
  · have : ∀ (i j : Fin 8), ((1#8 <<< (i : Nat)).getLsbD j) = decide (j = i) := by decide
    have h1 := this ⟨i, hi⟩ ⟨j, hj⟩
    by_cases hji : j = i
    · subst hji
      cases v <;> simp_all [setBit]
    · have : ((1#8 <<< i).getLsbD j) = false := by simpa [hji] using h1
      cases v <;> simp only [setBit, if_true, Bool.false_eq_true, if_false, BitVec.getLsbD_or, BitVec.getLsbD_and,
        BitVec.getLsbD_not, this, hji, hj] <;> simp
  · have hji : j ≠ i := by omega
    rw [if_neg hji, BitVec.getLsbD_of_ge _ _ (by omega), BitVec.getLsbD_of_ge _ _ (by omega)]

theorem Flag.pos_lt (f : Flag) : f.pos < 8 := by cases f <;> decide

theorem Flag.pos_inj {f g : Flag} : f.pos = g.pos ↔ f = g := by cases f <;> cases g <;> decide

/-- A flag of a flags byte after one flag was written. -/
@[simp] theorem flagOf_withFlag (f g : Flag) (v : Bool) (w : Word) :
    flagOf g (withFlag f v w) = if g = f then v else flagOf g w := by
  simp only [flagOf, withFlag, getLsbD_setBit _ _ _ _ f.pos_lt, Flag.pos_inj]

/-- Two flags bytes with the same eight flags are equal. -/
theorem flags_ext {w w' : Word} (h : ∀ f, flagOf f w = flagOf f w') : w = w' := by
  apply BitVec.eq_of_getLsbD_eq
  intro i hi
  rcases (show i = 0 ∨ i = 1 ∨ i = 2 ∨ i = 3 ∨ i = 4 ∨ i = 5 ∨ i = 6 ∨ i = 7 by omega) with
    h0 | h0 | h0 | h0 | h0 | h0 | h0 | h0 <;> subst h0
  · exact h .z
  · exact h .n
  · exact h .o
  · exact h .a
  · exact h .c
  · exact h .i
  · exact h .u6
  · exact h .u7

@[simp] theorem flag_setFlag (s : State) (f g : Flag) (v : Bool) :
    (s.setFlag f v).flag g = if g = f then v else s.flag g := by simp [State.flag, State.setFlag]

/-- A flag update answers a next state only, and it is the updated state. -/
theorem updateFlags_next {op : AluOp} {res : Word} {rep cin : Bool} {s t : State}
    (h : updateFlags op res rep cin s = .next t) : t = s.flagsUpdated op res rep cin := by
  unfold updateFlags at h
  split at h
  · cases h
  · split at h
    · cases h
    · exact (Host.Outcome.next.inj h).symm

/-- With its snapshots taken a flag update never fails (R191). -/
theorem updateFlags_of_valid {op : AluOp} {res : Word} {rep cin : Bool} {s : State} (hp : s.preValid = true)
    (ha : op.twoOperand = true → s.argValid = true) :
    updateFlags op res rep cin s = .next (s.flagsUpdated op res rep cin) := by
  unfold updateFlags
  rw [if_neg (by simp [hp]), if_neg]
  rintro ⟨h2, h3⟩
  simp [ha h2] at h3

/-- The shape of ADD to ADC and SUBB: it always answers, with the result in ACC and the flags updated. -/
theorem accOp_eq {op : AluOp} (f : Word → Word → Bool → Word × Bool) (o : Operand) (s : State) :
    accOp op f o s =
      .next (({ ((o.load s).snapPre (o.load s).acc).snapArg (o.load s).dl with
          acc := (f (o.load s).acc (o.load s).dl (s.flag .c)).1 } : State).flagsUpdated op
        (f (o.load s).acc (o.load s).dl (s.flag .c)).1 (f (o.load s).acc (o.load s).dl (s.flag .c)).2 (s.flag .c)) :=
  updateFlags_of_valid rfl (fun _ => rfl)

/-- The shape of CMP: as `accOp_eq`, and no register is written. -/
theorem accCompare_eq {op : AluOp} (f : Word → Word → Bool → Word × Bool) (o : Operand) (s : State) :
    accCompare op f o s =
      .next ((((o.load s).snapPre (o.load s).acc).snapArg (o.load s).dl).flagsUpdated op
        (f (o.load s).acc (o.load s).dl (s.flag .c)).1 (f (o.load s).acc (o.load s).dl (s.flag .c)).2 (s.flag .c)) :=
  updateFlags_of_valid rfl (fun _ => rfl)

/-- The shape of DAA and DSA. -/
theorem accAdjust_eq {op : AluOp} (h1 : op.twoOperand = false) (f : Word → Word × Bool) (s : State) :
    accAdjust op f s =
      .next (({ s.snapPre s.acc with acc := (f s.acc).1 } : State).flagsUpdated op (f s.acc).1 (f s.acc).2
        (s.flag .c)) :=
  updateFlags_of_valid rfl (fun h => absurd (h1.symm.trans h) (by decide))

end Sys2Proof.Machine
end

