-- ==== Sys2Proof/Laws/Memory.lean ====
section
/-! SUPPORT. What a memory write does, said once: the written address reads the value, every other address reads as
before, and the canonical form is kept; and what a memory reads as where nothing was written (20_memory.md R61, R68). -/

namespace Sys2Proof.Machine

/-! ### What was never written -/

@[simp] theorem Memory.written_nil (x : Nat) : Memory.written [] x = none := rfl

@[simp] theorem Memory.read_nil (x : Nat) : Memory.read [] x = Memory.unlisted x := rfl

/-- The cell the first reset cleared (R370). -/
@[simp] theorem Memory.unlisted_cleared : Memory.unlisted (Config.resetVectorAddr.val + 1) = 0x00 := if_pos rfl

/-- Every other cell holds what IMAGE gives it (R61). -/
theorem Memory.unlisted_image {x : Nat} (h : x ≠ Config.resetVectorAddr.val + 1) :
    Memory.unlisted x = Config.image (BitVec.ofNat 10 x) := if_neg h

/-! ### Read after write -/

theorem Memory.written_write (m : Memory) (x y : Nat) (v : Word) :
    Memory.written (Memory.write x v m) y = if y = x then some v else Memory.written m y := by
  induction m with
  | nil => simp [Memory.write, Memory.written, eq_comm]
  | cons c m ih =>
    obtain ⟨a, w⟩ := c
    simp only [Memory.write]
    split
    · simp [Memory.written, eq_comm]
    · split
      · rename_i hax
        subst hax
        by_cases hay : a = y
        · simp [Memory.written, hay]
        · simp [Memory.written, hay, Ne.symm hay]
      · rename_i hax
        by_cases hay : a = y
        · subst hay; simp [Memory.written, hax]
        · simp [Memory.written, hay, ih]

/-- Read after write, at every address. -/
theorem Memory.read_write (m : Memory) (x y : Nat) (v : Word) :
    Memory.read (Memory.write x v m) y = if y = x then v else Memory.read m y := by
  by_cases hyx : y = x <;> simp [Memory.read, Memory.written_write, hyx]

/-! ### The canonical form -/

theorem Memory.wfFrom_write (m : Memory) (x lo : Nat) (v : Word) (hlo : lo ≤ x) (hx : x < memSize)
    (hm : Memory.wfFrom lo m = true) : Memory.wfFrom lo (Memory.write x v m) = true := by
  induction m generalizing lo with
  | nil => simp [Memory.write, Memory.wfFrom, hlo, hx]
  | cons c m ih =>
    obtain ⟨a, w⟩ := c
    simp only [Memory.wfFrom, Bool.and_eq_true, decide_eq_true_eq] at hm
    obtain ⟨⟨hla, ha⟩, hm⟩ := hm
    simp only [Memory.write]
    split
    · simp only [Memory.wfFrom, Bool.and_eq_true, decide_eq_true_eq]
      exact ⟨⟨hlo, hx⟩, ⟨by omega, ha⟩, hm⟩
    · split
      · rename_i hax
        subst hax
        simp [Memory.wfFrom, hla, ha, hm]
      · simp only [Memory.wfFrom, Bool.and_eq_true, decide_eq_true_eq]
        exact ⟨⟨hla, ha⟩, ih _ (by omega) hm⟩

/-- A write below 1024 keeps the canonical form. -/
theorem Memory.wf_write (m : Memory) (x : Nat) (v : Word) (hx : x < memSize) (hm : Memory.wf m = true) :
    Memory.wf (Memory.write x v m) = true :=
  Memory.wfFrom_write m x 0 v (Nat.zero_le _) hx hm

/-- Below a cell's address nothing of a canonical memory was written. -/
theorem Memory.written_below (m : Memory) {lo y : Nat} (hm : Memory.wfFrom lo m = true) (hy : y < lo) :
    Memory.written m y = none := by
  induction m generalizing lo with
  | nil => rfl
  | cons c m ih =>
    obtain ⟨a, w⟩ := c
    simp only [Memory.wfFrom, Bool.and_eq_true, decide_eq_true_eq] at hm
    have hay : a ≠ y := by omega
    simp only [Memory.written, hay, if_false]
    exact ih hm.2 (by omega)

/-- Two canonical memories in which the same Words were written are the same list. -/
theorem Memory.ext_of_written {m m' : Memory} {lo : Nat} (hm : Memory.wfFrom lo m = true)
    (hm' : Memory.wfFrom lo m' = true) (h : ∀ y, Memory.written m y = Memory.written m' y) : m = m' := by
  induction m generalizing m' lo with
  | nil =>
    cases m' with
    | nil => rfl
    | cons c m' => simpa [Memory.written] using h c.1
  | cons c m ih =>
    obtain ⟨a, v⟩ := c
    cases m' with
    | nil => simpa [Memory.written] using h a
    | cons c' m' =>
      obtain ⟨b, w⟩ := c'
      simp only [Memory.wfFrom, Bool.and_eq_true, decide_eq_true_eq] at hm hm'
      have ha := h a
      have hb := h b
      simp only [Memory.written, if_true] at ha hb
      have hab : a = b := by
        rcases Nat.lt_trichotomy a b with hlt | heq | hgt
        · rw [if_neg (by omega), Memory.written_below m' hm'.2 (by omega)] at ha
          cases ha
        · exact heq
        · rw [if_neg (by omega), Memory.written_below m hm.2 (by omega)] at hb
          cases hb
      subst hab
      obtain rfl : v = w := by simpa using ha
      rw [ih hm.2 hm'.2]
      intro y
      by_cases hya : a = y
      · subst hya
        rw [Memory.written_below m hm.2 (by omega), Memory.written_below m' hm'.2 (by omega)]
      · simpa [Memory.written, hya] using h y

end Sys2Proof.Machine
end

