-- ==== Sys2Proof/Laws/State.lean ====
section
/-! SUPPORT. The small lemmas of State: one per field per named update, true by rfl. -/

namespace Sys2Proof.Machine

/-! ### `memWrite` -/

@[simp] theorem memWrite_acc (s : State) (x : Addr) (v : Word) : (s.memWrite x v).acc = s.acc := rfl
@[simp] theorem memWrite_regs (s : State) (x : Addr) (v : Word) : (s.memWrite x v).regs = s.regs := rfl
@[simp] theorem memWrite_dr (s : State) (x : Addr) (v : Word) : (s.memWrite x v).dr = s.dr := rfl
@[simp] theorem memWrite_cr0 (s : State) (x : Addr) (v : Word) : (s.memWrite x v).cr0 = s.cr0 := rfl
@[simp] theorem memWrite_cr1 (s : State) (x : Addr) (v : Word) : (s.memWrite x v).cr1 = s.cr1 := rfl
@[simp] theorem memWrite_pcl (s : State) (x : Addr) (v : Word) : (s.memWrite x v).pcl = s.pcl := rfl
@[simp] theorem memWrite_spl (s : State) (x : Addr) (v : Word) : (s.memWrite x v).spl = s.spl := rfl
@[simp] theorem memWrite_cs (s : State) (x : Addr) (v : Word) : (s.memWrite x v).cs = s.cs := rfl
@[simp] theorem memWrite_ds (s : State) (x : Addr) (v : Word) : (s.memWrite x v).ds = s.ds := rfl
@[simp] theorem memWrite_ss (s : State) (x : Addr) (v : Word) : (s.memWrite x v).ss = s.ss := rfl
@[simp] theorem memWrite_flags (s : State) (x : Addr) (v : Word) : (s.memWrite x v).flags = s.flags := rfl
@[simp] theorem memWrite_al (s : State) (x : Addr) (v : Word) : (s.memWrite x v).al = s.al := rfl
@[simp] theorem memWrite_dl (s : State) (x : Addr) (v : Word) : (s.memWrite x v).dl = s.dl := rfl
@[simp] theorem memWrite_run (s : State) (x : Addr) (v : Word) : (s.memWrite x v).run = s.run := rfl
@[simp] theorem memWrite_pre (s : State) (x : Addr) (v : Word) : (s.memWrite x v).pre = s.pre := rfl
@[simp] theorem memWrite_arg (s : State) (x : Addr) (v : Word) : (s.memWrite x v).arg = s.arg := rfl
@[simp] theorem memWrite_preValid (s : State) (x : Addr) (v : Word) : (s.memWrite x v).preValid = s.preValid := rfl
@[simp] theorem memWrite_argValid (s : State) (x : Addr) (v : Word) : (s.memWrite x v).argValid = s.argValid := rfl
@[simp] theorem memWrite_unrec (s : State) (x : Addr) (v : Word) : (s.memWrite x v).unrec = s.unrec := rfl
@[simp] theorem memWrite_mem (s : State) (x : Addr) (v : Word) : (s.memWrite x v).mem = Memory.write x.toNat v s.mem := rfl
@[simp] theorem memWrite_dev (s : State) (x : Addr) (v : Word) : (s.memWrite x v).dev = s.dev := rfl
@[simp] theorem memWrite_host (s : State) (x : Addr) (v : Word) : (s.memWrite x v).host = s.host := rfl
@[simp] theorem memWrite_reg (s : State) (x : Addr) (v : Word) (q : RegNum) : (s.memWrite x v).reg q = s.reg q := rfl
@[simp] theorem memWrite_flag (s : State) (x : Addr) (v : Word) (g : Flag) : (s.memWrite x v).flag g = s.flag g := rfl

/-! ### `setReg` -/

@[simp] theorem setReg_acc (s : State) (r : RegNum) (v : Word) : (s.setReg r v).acc = s.acc := rfl
@[simp] theorem setReg_regs (s : State) (r : RegNum) (v : Word) : (s.setReg r v).regs = s.regs.set r.toNat v r.isLt := rfl
@[simp] theorem setReg_dr (s : State) (r : RegNum) (v : Word) : (s.setReg r v).dr = s.dr := rfl
@[simp] theorem setReg_cr0 (s : State) (r : RegNum) (v : Word) : (s.setReg r v).cr0 = s.cr0 := rfl
@[simp] theorem setReg_cr1 (s : State) (r : RegNum) (v : Word) : (s.setReg r v).cr1 = s.cr1 := rfl
@[simp] theorem setReg_pcl (s : State) (r : RegNum) (v : Word) : (s.setReg r v).pcl = s.pcl := rfl
@[simp] theorem setReg_spl (s : State) (r : RegNum) (v : Word) : (s.setReg r v).spl = s.spl := rfl
@[simp] theorem setReg_cs (s : State) (r : RegNum) (v : Word) : (s.setReg r v).cs = s.cs := rfl
@[simp] theorem setReg_ds (s : State) (r : RegNum) (v : Word) : (s.setReg r v).ds = s.ds := rfl
@[simp] theorem setReg_ss (s : State) (r : RegNum) (v : Word) : (s.setReg r v).ss = s.ss := rfl
@[simp] theorem setReg_flags (s : State) (r : RegNum) (v : Word) : (s.setReg r v).flags = s.flags := rfl
@[simp] theorem setReg_al (s : State) (r : RegNum) (v : Word) : (s.setReg r v).al = s.al := rfl
@[simp] theorem setReg_dl (s : State) (r : RegNum) (v : Word) : (s.setReg r v).dl = s.dl := rfl
@[simp] theorem setReg_run (s : State) (r : RegNum) (v : Word) : (s.setReg r v).run = s.run := rfl
@[simp] theorem setReg_pre (s : State) (r : RegNum) (v : Word) : (s.setReg r v).pre = s.pre := rfl
@[simp] theorem setReg_arg (s : State) (r : RegNum) (v : Word) : (s.setReg r v).arg = s.arg := rfl
@[simp] theorem setReg_preValid (s : State) (r : RegNum) (v : Word) : (s.setReg r v).preValid = s.preValid := rfl
@[simp] theorem setReg_argValid (s : State) (r : RegNum) (v : Word) : (s.setReg r v).argValid = s.argValid := rfl
@[simp] theorem setReg_unrec (s : State) (r : RegNum) (v : Word) : (s.setReg r v).unrec = s.unrec := rfl
@[simp] theorem setReg_mem (s : State) (r : RegNum) (v : Word) : (s.setReg r v).mem = s.mem := rfl
@[simp] theorem setReg_dev (s : State) (r : RegNum) (v : Word) : (s.setReg r v).dev = s.dev := rfl
@[simp] theorem setReg_host (s : State) (r : RegNum) (v : Word) : (s.setReg r v).host = s.host := rfl
@[simp] theorem setReg_memRead (s : State) (r : RegNum) (v : Word) (y : Addr) : (s.setReg r v).memRead y = s.memRead y := rfl
@[simp] theorem setReg_flag (s : State) (r : RegNum) (v : Word) (g : Flag) : (s.setReg r v).flag g = s.flag g := rfl

/-! ### `setFlag` -/

@[simp] theorem setFlag_acc (s : State) (f : Flag) (v : Bool) : (s.setFlag f v).acc = s.acc := rfl
@[simp] theorem setFlag_regs (s : State) (f : Flag) (v : Bool) : (s.setFlag f v).regs = s.regs := rfl
@[simp] theorem setFlag_dr (s : State) (f : Flag) (v : Bool) : (s.setFlag f v).dr = s.dr := rfl
@[simp] theorem setFlag_cr0 (s : State) (f : Flag) (v : Bool) : (s.setFlag f v).cr0 = s.cr0 := rfl
@[simp] theorem setFlag_cr1 (s : State) (f : Flag) (v : Bool) : (s.setFlag f v).cr1 = s.cr1 := rfl
@[simp] theorem setFlag_pcl (s : State) (f : Flag) (v : Bool) : (s.setFlag f v).pcl = s.pcl := rfl
@[simp] theorem setFlag_spl (s : State) (f : Flag) (v : Bool) : (s.setFlag f v).spl = s.spl := rfl
@[simp] theorem setFlag_cs (s : State) (f : Flag) (v : Bool) : (s.setFlag f v).cs = s.cs := rfl
@[simp] theorem setFlag_ds (s : State) (f : Flag) (v : Bool) : (s.setFlag f v).ds = s.ds := rfl
@[simp] theorem setFlag_ss (s : State) (f : Flag) (v : Bool) : (s.setFlag f v).ss = s.ss := rfl
@[simp] theorem setFlag_flags (s : State) (f : Flag) (v : Bool) : (s.setFlag f v).flags = withFlag f v s.flags := rfl
@[simp] theorem setFlag_al (s : State) (f : Flag) (v : Bool) : (s.setFlag f v).al = s.al := rfl
@[simp] theorem setFlag_dl (s : State) (f : Flag) (v : Bool) : (s.setFlag f v).dl = s.dl := rfl
@[simp] theorem setFlag_run (s : State) (f : Flag) (v : Bool) : (s.setFlag f v).run = s.run := rfl
@[simp] theorem setFlag_pre (s : State) (f : Flag) (v : Bool) : (s.setFlag f v).pre = s.pre := rfl
@[simp] theorem setFlag_arg (s : State) (f : Flag) (v : Bool) : (s.setFlag f v).arg = s.arg := rfl
@[simp] theorem setFlag_preValid (s : State) (f : Flag) (v : Bool) : (s.setFlag f v).preValid = s.preValid := rfl
@[simp] theorem setFlag_argValid (s : State) (f : Flag) (v : Bool) : (s.setFlag f v).argValid = s.argValid := rfl
@[simp] theorem setFlag_unrec (s : State) (f : Flag) (v : Bool) : (s.setFlag f v).unrec = s.unrec := rfl
@[simp] theorem setFlag_mem (s : State) (f : Flag) (v : Bool) : (s.setFlag f v).mem = s.mem := rfl
@[simp] theorem setFlag_dev (s : State) (f : Flag) (v : Bool) : (s.setFlag f v).dev = s.dev := rfl
@[simp] theorem setFlag_host (s : State) (f : Flag) (v : Bool) : (s.setFlag f v).host = s.host := rfl
@[simp] theorem setFlag_reg (s : State) (f : Flag) (v : Bool) (q : RegNum) : (s.setFlag f v).reg q = s.reg q := rfl
@[simp] theorem setFlag_memRead (s : State) (f : Flag) (v : Bool) (y : Addr) : (s.setFlag f v).memRead y = s.memRead y := rfl

/-! ### `call` -/

@[simp] theorem call_acc (s : State) (c : CollaboratorCall) : (s.call c).acc = s.acc := rfl
@[simp] theorem call_regs (s : State) (c : CollaboratorCall) : (s.call c).regs = s.regs := rfl
@[simp] theorem call_dr (s : State) (c : CollaboratorCall) : (s.call c).dr = s.dr := rfl
@[simp] theorem call_cr0 (s : State) (c : CollaboratorCall) : (s.call c).cr0 = s.cr0 := rfl
@[simp] theorem call_cr1 (s : State) (c : CollaboratorCall) : (s.call c).cr1 = s.cr1 := rfl
@[simp] theorem call_pcl (s : State) (c : CollaboratorCall) : (s.call c).pcl = s.pcl := rfl
@[simp] theorem call_spl (s : State) (c : CollaboratorCall) : (s.call c).spl = s.spl := rfl
@[simp] theorem call_cs (s : State) (c : CollaboratorCall) : (s.call c).cs = s.cs := rfl
@[simp] theorem call_ds (s : State) (c : CollaboratorCall) : (s.call c).ds = s.ds := rfl
@[simp] theorem call_ss (s : State) (c : CollaboratorCall) : (s.call c).ss = s.ss := rfl
@[simp] theorem call_flags (s : State) (c : CollaboratorCall) : (s.call c).flags = s.flags := rfl
@[simp] theorem call_al (s : State) (c : CollaboratorCall) : (s.call c).al = s.al := rfl
@[simp] theorem call_dl (s : State) (c : CollaboratorCall) : (s.call c).dl = s.dl := rfl
@[simp] theorem call_run (s : State) (c : CollaboratorCall) : (s.call c).run = s.run := rfl
@[simp] theorem call_pre (s : State) (c : CollaboratorCall) : (s.call c).pre = s.pre := rfl
@[simp] theorem call_arg (s : State) (c : CollaboratorCall) : (s.call c).arg = s.arg := rfl
@[simp] theorem call_preValid (s : State) (c : CollaboratorCall) : (s.call c).preValid = s.preValid := rfl
@[simp] theorem call_argValid (s : State) (c : CollaboratorCall) : (s.call c).argValid = s.argValid := rfl
@[simp] theorem call_unrec (s : State) (c : CollaboratorCall) : (s.call c).unrec = s.unrec := rfl
@[simp] theorem call_mem (s : State) (c : CollaboratorCall) : (s.call c).mem = s.mem := rfl
@[simp] theorem call_dev (s : State) (c : CollaboratorCall) : (s.call c).dev = s.dev.record c := rfl
@[simp] theorem call_host (s : State) (c : CollaboratorCall) : (s.call c).host = s.host := rfl
@[simp] theorem call_reg (s : State) (c : CollaboratorCall) (q : RegNum) : (s.call c).reg q = s.reg q := rfl
@[simp] theorem call_memRead (s : State) (c : CollaboratorCall) (y : Addr) : (s.call c).memRead y = s.memRead y := rfl
@[simp] theorem call_flag (s : State) (c : CollaboratorCall) (g : Flag) : (s.call c).flag g = s.flag g := rfl

/-! ### `snapPre` -/

@[simp] theorem snapPre_acc (s : State) (x : Word) : (s.snapPre x).acc = s.acc := rfl
@[simp] theorem snapPre_regs (s : State) (x : Word) : (s.snapPre x).regs = s.regs := rfl
@[simp] theorem snapPre_dr (s : State) (x : Word) : (s.snapPre x).dr = s.dr := rfl
@[simp] theorem snapPre_cr0 (s : State) (x : Word) : (s.snapPre x).cr0 = s.cr0 := rfl
@[simp] theorem snapPre_cr1 (s : State) (x : Word) : (s.snapPre x).cr1 = s.cr1 := rfl
@[simp] theorem snapPre_pcl (s : State) (x : Word) : (s.snapPre x).pcl = s.pcl := rfl
@[simp] theorem snapPre_spl (s : State) (x : Word) : (s.snapPre x).spl = s.spl := rfl
@[simp] theorem snapPre_cs (s : State) (x : Word) : (s.snapPre x).cs = s.cs := rfl
@[simp] theorem snapPre_ds (s : State) (x : Word) : (s.snapPre x).ds = s.ds := rfl
@[simp] theorem snapPre_ss (s : State) (x : Word) : (s.snapPre x).ss = s.ss := rfl
@[simp] theorem snapPre_flags (s : State) (x : Word) : (s.snapPre x).flags = s.flags := rfl
@[simp] theorem snapPre_al (s : State) (x : Word) : (s.snapPre x).al = s.al := rfl
@[simp] theorem snapPre_dl (s : State) (x : Word) : (s.snapPre x).dl = s.dl := rfl
@[simp] theorem snapPre_run (s : State) (x : Word) : (s.snapPre x).run = s.run := rfl
@[simp] theorem snapPre_pre (s : State) (x : Word) : (s.snapPre x).pre = x := rfl
@[simp] theorem snapPre_arg (s : State) (x : Word) : (s.snapPre x).arg = s.arg := rfl
@[simp] theorem snapPre_preValid (s : State) (x : Word) : (s.snapPre x).preValid = true := rfl
@[simp] theorem snapPre_argValid (s : State) (x : Word) : (s.snapPre x).argValid = s.argValid := rfl
@[simp] theorem snapPre_unrec (s : State) (x : Word) : (s.snapPre x).unrec = s.unrec := rfl
@[simp] theorem snapPre_mem (s : State) (x : Word) : (s.snapPre x).mem = s.mem := rfl
@[simp] theorem snapPre_dev (s : State) (x : Word) : (s.snapPre x).dev = s.dev := rfl
@[simp] theorem snapPre_host (s : State) (x : Word) : (s.snapPre x).host = s.host := rfl
@[simp] theorem snapPre_reg (s : State) (x : Word) (q : RegNum) : (s.snapPre x).reg q = s.reg q := rfl
@[simp] theorem snapPre_memRead (s : State) (x : Word) (y : Addr) : (s.snapPre x).memRead y = s.memRead y := rfl
@[simp] theorem snapPre_flag (s : State) (x : Word) (g : Flag) : (s.snapPre x).flag g = s.flag g := rfl

/-! ### `snapArg` -/

@[simp] theorem snapArg_acc (s : State) (x : Word) : (s.snapArg x).acc = s.acc := rfl
@[simp] theorem snapArg_regs (s : State) (x : Word) : (s.snapArg x).regs = s.regs := rfl
@[simp] theorem snapArg_dr (s : State) (x : Word) : (s.snapArg x).dr = s.dr := rfl
@[simp] theorem snapArg_cr0 (s : State) (x : Word) : (s.snapArg x).cr0 = s.cr0 := rfl
@[simp] theorem snapArg_cr1 (s : State) (x : Word) : (s.snapArg x).cr1 = s.cr1 := rfl
@[simp] theorem snapArg_pcl (s : State) (x : Word) : (s.snapArg x).pcl = s.pcl := rfl
@[simp] theorem snapArg_spl (s : State) (x : Word) : (s.snapArg x).spl = s.spl := rfl
@[simp] theorem snapArg_cs (s : State) (x : Word) : (s.snapArg x).cs = s.cs := rfl
@[simp] theorem snapArg_ds (s : State) (x : Word) : (s.snapArg x).ds = s.ds := rfl
@[simp] theorem snapArg_ss (s : State) (x : Word) : (s.snapArg x).ss = s.ss := rfl
@[simp] theorem snapArg_flags (s : State) (x : Word) : (s.snapArg x).flags = s.flags := rfl
@[simp] theorem snapArg_al (s : State) (x : Word) : (s.snapArg x).al = s.al := rfl
@[simp] theorem snapArg_dl (s : State) (x : Word) : (s.snapArg x).dl = s.dl := rfl
@[simp] theorem snapArg_run (s : State) (x : Word) : (s.snapArg x).run = s.run := rfl
@[simp] theorem snapArg_pre (s : State) (x : Word) : (s.snapArg x).pre = s.pre := rfl
@[simp] theorem snapArg_arg (s : State) (x : Word) : (s.snapArg x).arg = x := rfl
@[simp] theorem snapArg_preValid (s : State) (x : Word) : (s.snapArg x).preValid = s.preValid := rfl
@[simp] theorem snapArg_argValid (s : State) (x : Word) : (s.snapArg x).argValid = true := rfl
@[simp] theorem snapArg_unrec (s : State) (x : Word) : (s.snapArg x).unrec = s.unrec := rfl
@[simp] theorem snapArg_mem (s : State) (x : Word) : (s.snapArg x).mem = s.mem := rfl
@[simp] theorem snapArg_dev (s : State) (x : Word) : (s.snapArg x).dev = s.dev := rfl
@[simp] theorem snapArg_host (s : State) (x : Word) : (s.snapArg x).host = s.host := rfl
@[simp] theorem snapArg_reg (s : State) (x : Word) (q : RegNum) : (s.snapArg x).reg q = s.reg q := rfl
@[simp] theorem snapArg_memRead (s : State) (x : Word) (y : Addr) : (s.snapArg x).memRead y = s.memRead y := rfl
@[simp] theorem snapArg_flag (s : State) (x : Word) (g : Flag) : (s.snapArg x).flag g = s.flag g := rfl

/-! ### The readers depend on their own field only -/

theorem reg_congr {s t : State} (h : t.regs = s.regs) (r : RegNum) : t.reg r = s.reg r := by simp [State.reg, h]

theorem memRead_congr {s t : State} (h : t.mem = s.mem) (x : Addr) : t.memRead x = s.memRead x := by
  simp [State.memRead, h]

theorem flag_congr {s t : State} (h : t.flags = s.flags) (f : Flag) : t.flag f = s.flag f := by simp [State.flag, h]

/-- Reading a register after a register write. -/
theorem reg_setReg (s : State) (r q : RegNum) (v : Word) : (s.setReg r v).reg q = if q = r then v else s.reg q := by
  simp only [State.reg, State.setReg, Vector.get_eq_getElem, Vector.getElem_set]
  simp [BitVec.toNat_inj, eq_comm]

@[simp] theorem reg_setReg_same (s : State) (r : RegNum) (v : Word) : (s.setReg r v).reg r = v := by simp [reg_setReg]

theorem reg_setReg_ne (s : State) {r q : RegNum} (v : Word) (h : q ≠ r) : (s.setReg r v).reg q = s.reg q := by
  simp [reg_setReg, h]

/-- Two register files with the same eight registers are equal. -/
theorem regs_ext {s t : State} (h : ∀ r, t.reg r = s.reg r) : t.regs = s.regs := by
  apply Vector.ext
  intro i hi
  simpa [State.reg, Vector.get_eq_getElem, BitVec.toNat_ofNat, Nat.mod_eq_of_lt hi] using h (BitVec.ofNat 3 i)

end Sys2Proof.Machine
end

