-- ==== Sys2Proof/Laws/Ops.lean ====
section
/-! SUPPORT. One lemma per shared operation of Machine/Ops.lean that says all it does. The primitives are equations simp
rewrites with; the sequences (push, pop, vectoring, acceptance, return, fetch) state the whole state they leave. -/

namespace Sys2Proof.Machine

/-! ## Addresses -/

/-- `ea` is offset plus 256 times the segment, and never leaves 0..1023 (R29, R87). -/
theorem ea_toNat (seg : Seg) (off : Word) : (ea seg off).toNat = off.toNat + seg.toNat * 256 := by
  have h1 := seg.isLt
  have h2 := off.isLt
  rw [ea, BitVec.toNat_ofNat, Nat.mod_eq_of_lt (by omega)]

/-- Segments do not overlap (R29, R62). -/
theorem ea_inj {seg seg' : Seg} {off off' : Word} : ea seg off = ea seg' off' ↔ seg = seg' ∧ off = off' := by
  constructor
  · intro h
    have h' := congrArg BitVec.toNat h
    rw [ea_toNat, ea_toNat] at h'
    have h1 := off.isLt
    have h2 := off'.isLt
    exact ⟨BitVec.eq_of_toNat_eq (by omega), BitVec.eq_of_toNat_eq (by omega)⟩
  · rintro ⟨rfl, rfl⟩; rfl

@[simp] theorem zext_port (p : Word) : (p.setWidth 10).setWidth 8 = p := by
  apply BitVec.eq_of_toNat_eq
  have := p.isLt
  simp only [BitVec.toNat_setWidth]
  omega

/-! ## Memory reads and writes -/

/-- Read after write, at every address (R68). -/
theorem memRead_memWrite (s : State) (x y : Addr) (v : Word) :
    (s.memWrite x v).memRead y = if y = x then v else s.memRead y := by
  simp [State.memRead, State.memWrite, Memory.read_write, BitVec.toNat_inj]

@[simp] theorem memRead_memWrite_same (s : State) (x : Addr) (v : Word) : (s.memWrite x v).memRead x = v := by
  simp [memRead_memWrite]

theorem memRead_memWrite_ne (s : State) {x y : Addr} (v : Word) (h : y ≠ x) :
    (s.memWrite x v).memRead y = s.memRead y := by simp [memRead_memWrite, h]

/-- A memory write keeps the canonical form. -/
theorem wf_memWrite (s : State) (x : Addr) (v : Word) (h : Memory.wf s.mem = true) :
    Memory.wf (s.memWrite x v).mem = true :=
  Memory.wf_write _ _ _ (by have := x.isLt; simpa [memSize] using this) h

/-! ## Primitives -/

@[simp] theorem ldMem_eq (s : State) : s.ldMem = { s with dl := s.memRead s.al } := rfl
@[simp] theorem stMem_eq (s : State) : s.stMem = s.memWrite s.al s.dl := rfl
@[simp] theorem ldReg_eq (s : State) (r : RegNum) : s.ldReg r = { s with dl := s.reg r } := rfl
@[simp] theorem stReg_eq (s : State) (r : RegNum) : s.stReg r = s.setReg r s.dl := rfl
@[simp] theorem ldCr0_eq (s : State) (k : Word) : s.ldCr0 k = { s with dl := k } := rfl
@[simp] theorem ldPcl_eq (s : State) : s.ldPcl = { s with dl := s.pcl } := rfl
@[simp] theorem ldStatus_eq (s : State) : s.ldStatus = { s with dl := statusWord s.flags s.cs } := rfl
@[simp] theorem ldPort_eq (s : State) :
    s.ldPort = { s with dl := s.dev.wordAnswer s.alPort, dev := s.dev.askWord s.alPort } := rfl
@[simp] theorem stPort_eq (s : State) : s.stPort = s.call (.writePort s.alPort s.dl) := rfl
@[simp] theorem ldPbit_eq (s : State) (b : BitIdx) : s.ldPbit b = { s with dev := s.dev.askBit s.alPort b } := rfl
@[simp] theorem stPbit_eq (s : State) (b : BitIdx) (v : Bool) : s.stPbit b v = s.call (.writePortBit s.alPort b v) := rfl
@[simp] theorem setDlBit_eq (s : State) (b : BitIdx) (v : Bool) :
    s.setDlBit b v = { s with dl := setBit b.toNat v s.dl } := rfl
@[simp] theorem loadCr0_eq (s : State) : s.loadCr0 = { s with cr0 := s.memRead s.al } := rfl
@[simp] theorem loadCr1_eq (s : State) : s.loadCr1 = { s with cr1 := s.memRead s.al } := rfl
@[simp] theorem eaDirect_eq (s : State) (a : Word) : s.eaDirect a = { s with al := ea s.ds a } := rfl
@[simp] theorem eaInd_eq (s : State) (r : RegNum) : s.eaInd r = { s with al := ea s.ds (s.reg r) } := rfl
@[simp] theorem adjInc_eq (s : State) (r : RegNum) : s.adjInc r = s.setReg r (s.reg r + 1) := rfl
@[simp] theorem adjDec_eq (s : State) (r : RegNum) : s.adjDec r = s.setReg r (s.reg r - 1) := rfl
@[simp] theorem eaStack_eq (s : State) : s.eaStack = { s with al := ea s.ss s.spl } := rfl
@[simp] theorem eaVector_eq (s : State) (id k : Nat) : s.eaVector id k = { s with al := ea s.cs (vectorOffset id k) } := rfl
@[simp] theorem eaCode_eq (s : State) : s.eaCode = { s with al := ea s.cs s.pcl } := rfl
@[simp] theorem eaPort_eq (s : State) (p : Word) : s.eaPort p = { s with al := p.setWidth 10 } := rfl
@[simp] theorem accToDl_eq (s : State) : s.accToDl = { s with dl := s.acc } := rfl
@[simp] theorem dlToAcc_eq (s : State) : s.dlToAcc = { s with acc := s.dl } := rfl
@[simp] theorem pclInc_eq (s : State) : s.pclInc = { s with pcl := s.pcl + 1 } := rfl
@[simp] theorem pclLoad_eq (s : State) : s.pclLoad = { s with pcl := s.dl } := rfl
@[simp] theorem pclLoadCr0_eq (s : State) : s.pclLoadCr0 = { s with pcl := s.cr0 } := rfl
@[simp] theorem splDec_eq (s : State) : s.splDec = { s with spl := s.spl - 1 } := rfl
@[simp] theorem splInc_eq (s : State) : s.splInc = { s with spl := s.spl + 1 } := rfl
@[simp] theorem csLoad_eq (s : State) (v : Word) : s.csLoad v = { s with cs := v.extractLsb' 0 2 } := rfl
@[simp] theorem irqAck_eq (s : State) : s.irqAck = { s with dev := s.dev.askAck } := rfl
@[simp] theorem irqPending_eq (s : State) : s.irqPending = { s with dev := s.dev.askPending } := rfl
@[simp] theorem irqClear_eq (s : State) : s.irqClear = s.call .clearInterruptAcknowledge := rfl

/-! ## Sequences -/

/-- A push (R26): SPL down by one, DL stored at the new top, and nothing else but AL. -/
theorem pushDl_eq (s : State) :
    s.pushDl =
      ({ s with spl := s.spl - 1, al := ea s.ss (s.spl - 1) } : State).memWrite (ea s.ss (s.spl - 1)) s.dl := rfl

/-- A pop (R26): DL gets the top, SPL goes up by one. -/
theorem popDl_eq (s : State) :
    s.popDl = { s with spl := s.spl + 1, al := ea s.ss s.spl, dl := s.memRead (ea s.ss s.spl) } := rfl

/-- The two pushes of an entry (R341): PCL, then the status word. -/
theorem saveForEntry_eq (s : State) :
    s.saveForEntry =
      (({ s with spl := s.spl - 1 - 1, al := ea s.ss (s.spl - 1 - 1), dl := statusWord s.flags s.cs } : State).memWrite
        (ea s.ss (s.spl - 1)) s.pcl).memWrite (ea s.ss (s.spl - 1 - 1)) (statusWord s.flags s.cs) := by
  simp [State.saveForEntry, pushDl_eq, State.memWrite]

/-- The vectoring sequence (R343). -/
theorem vector_eq (s : State) (id : Nat) :
    s.vector id =
      { s with
        al := ea s.cs (vectorOffset id 1)
        cr0 := s.memRead (ea s.cs (vectorOffset id 0))
        cr1 := s.memRead (ea s.cs (vectorOffset id 1))
        cs := (s.memRead (ea s.cs (vectorOffset id 1))).extractLsb' 0 2
        pcl := s.memRead (ea s.cs (vectorOffset id 0))
        flags := withFlag .i false s.flags } := by
  simp [State.vector, State.setFlag, State.memRead]

/-- The return sequence of IRET (R283). -/
theorem interruptReturn_eq (s : State) :
    s.interruptReturn =
      ({ s with
        spl := s.spl + 1 + 1
        al := ea s.ss (s.spl + 1)
        dl := s.memRead (ea s.ss (s.spl + 1))
        cs := (s.memRead (ea s.ss s.spl)).extractLsb' 0 2
        flags := restoreFlags (s.memRead (ea s.ss s.spl)) s.flags
        pcl := s.memRead (ea s.ss (s.spl + 1)) } : State).call .clearInterruptAcknowledge := by
  simp [State.interruptReturn, popDl_eq, State.restoreStatus, State.memRead]

/-- The fetch (R101). -/
theorem fetch_eq (s : State) :
    s.fetch =
      { s with
        al := ea s.cs (s.pcl + 1)
        cr0 := s.memRead (ea s.cs s.pcl)
        cr1 := s.memRead (ea s.cs (s.pcl + 1))
        pcl := s.pcl + 1 + 1 } := by
  simp [State.fetch, State.memRead]

/-- A rotate of ACC (R159). -/
theorem rotateAcc_eq (s : State) (x : Word × Bool) :
    s.rotateAcc x = { s with acc := x.1, flags := withFlag .c x.2 s.flags } := rfl

/-- The halt test: RUN cleared exactly when both latches are zero (R104). -/
theorem haltTest_eq (s : State) :
    s.haltTest = { s with run := s.run && !decide (s.cr0 = 0x00 ∧ s.cr1 = 0x00) } := by
  unfold State.haltTest
  obtain ⟨acc, regs, dr, cr0, cr1, pcl, spl, cs, ds, ss, flags, al, dl, run, pre, arg, pv, av, un, mem, dev, host⟩ := s
  by_cases h : cr0 = 0x00 ∧ cr1 = 0x00
  · simp only [h, and_self, if_true, decide_true, Bool.not_true, Bool.and_false]
  · simp only [h, if_false, decide_false, Bool.not_false, Bool.and_true]

/-- The status word holds CS in bits 1..0 (R342). -/
theorem statusWord_cs (w : Word) (cs : Seg) : (statusWord w cs).extractLsb' 0 2 = cs := by
  apply BitVec.eq_of_getLsbD_eq
  intro i hi
  obtain rfl | rfl : i = 0 ∨ i = 1 := by omega
  · simp [statusWord]
  · simp [statusWord]

/-- The status word gives the six active flags back and keeps U6 and U7 of the flags it is restored over (R283, R342). -/
theorem restoreFlags_statusWord (w w' : Word) (cs : Seg) (f : Flag) :
    flagOf f (restoreFlags (statusWord w cs) w') = if f = .u6 ∨ f = .u7 then flagOf f w' else flagOf f w := by
  have h := cs.isLt
  cases f <;> simp [flagOf, Flag.pos, restoreFlags, statusWord]

end Sys2Proof.Machine
end

