-- ==== Sys2Proof/Laws/Operands.lean ====
section
/-! SUPPORT. What the operand functions do, said once: the value they find, the location they write, the register they
step, and the fields they leave alone (42_operands.md). -/

namespace Sys2Proof.Machine

/-! ## The register step of a form -/

@[simp] theorem stepBefore_acc (o : Operand) (s : State) : (o.stepBefore s).acc = s.acc := by
  rcases o with ⟨_ | _ | _ | _, _⟩ | _ | _ <;> rfl
@[simp] theorem stepBefore_dr (o : Operand) (s : State) : (o.stepBefore s).dr = s.dr := by
  rcases o with ⟨_ | _ | _ | _, _⟩ | _ | _ <;> rfl
@[simp] theorem stepBefore_cr0 (o : Operand) (s : State) : (o.stepBefore s).cr0 = s.cr0 := by
  rcases o with ⟨_ | _ | _ | _, _⟩ | _ | _ <;> rfl
@[simp] theorem stepBefore_cr1 (o : Operand) (s : State) : (o.stepBefore s).cr1 = s.cr1 := by
  rcases o with ⟨_ | _ | _ | _, _⟩ | _ | _ <;> rfl
@[simp] theorem stepBefore_pcl (o : Operand) (s : State) : (o.stepBefore s).pcl = s.pcl := by
  rcases o with ⟨_ | _ | _ | _, _⟩ | _ | _ <;> rfl
@[simp] theorem stepBefore_spl (o : Operand) (s : State) : (o.stepBefore s).spl = s.spl := by
  rcases o with ⟨_ | _ | _ | _, _⟩ | _ | _ <;> rfl
@[simp] theorem stepBefore_cs (o : Operand) (s : State) : (o.stepBefore s).cs = s.cs := by
  rcases o with ⟨_ | _ | _ | _, _⟩ | _ | _ <;> rfl
@[simp] theorem stepBefore_ds (o : Operand) (s : State) : (o.stepBefore s).ds = s.ds := by
  rcases o with ⟨_ | _ | _ | _, _⟩ | _ | _ <;> rfl
@[simp] theorem stepBefore_ss (o : Operand) (s : State) : (o.stepBefore s).ss = s.ss := by
  rcases o with ⟨_ | _ | _ | _, _⟩ | _ | _ <;> rfl
@[simp] theorem stepBefore_flags (o : Operand) (s : State) : (o.stepBefore s).flags = s.flags := by
  rcases o with ⟨_ | _ | _ | _, _⟩ | _ | _ <;> rfl
@[simp] theorem stepBefore_run (o : Operand) (s : State) : (o.stepBefore s).run = s.run := by
  rcases o with ⟨_ | _ | _ | _, _⟩ | _ | _ <;> rfl
@[simp] theorem stepBefore_pre (o : Operand) (s : State) : (o.stepBefore s).pre = s.pre := by
  rcases o with ⟨_ | _ | _ | _, _⟩ | _ | _ <;> rfl
@[simp] theorem stepBefore_arg (o : Operand) (s : State) : (o.stepBefore s).arg = s.arg := by
  rcases o with ⟨_ | _ | _ | _, _⟩ | _ | _ <;> rfl
@[simp] theorem stepBefore_preValid (o : Operand) (s : State) : (o.stepBefore s).preValid = s.preValid := by
  rcases o with ⟨_ | _ | _ | _, _⟩ | _ | _ <;> rfl
@[simp] theorem stepBefore_argValid (o : Operand) (s : State) : (o.stepBefore s).argValid = s.argValid := by
  rcases o with ⟨_ | _ | _ | _, _⟩ | _ | _ <;> rfl
@[simp] theorem stepBefore_unrec (o : Operand) (s : State) : (o.stepBefore s).unrec = s.unrec := by
  rcases o with ⟨_ | _ | _ | _, _⟩ | _ | _ <;> rfl
@[simp] theorem stepBefore_dev (o : Operand) (s : State) : (o.stepBefore s).dev = s.dev := by
  rcases o with ⟨_ | _ | _ | _, _⟩ | _ | _ <;> rfl
@[simp] theorem stepBefore_host (o : Operand) (s : State) : (o.stepBefore s).host = s.host := by
  rcases o with ⟨_ | _ | _ | _, _⟩ | _ | _ <;> rfl
@[simp] theorem stepBefore_al (o : Operand) (s : State) : (o.stepBefore s).al = s.al := by
  rcases o with ⟨_ | _ | _ | _, _⟩ | _ | _ <;> rfl
@[simp] theorem stepBefore_dl (o : Operand) (s : State) : (o.stepBefore s).dl = s.dl := by
  rcases o with ⟨_ | _ | _ | _, _⟩ | _ | _ <;> rfl
@[simp] theorem stepBefore_mem (o : Operand) (s : State) : (o.stepBefore s).mem = s.mem := by
  rcases o with ⟨_ | _ | _ | _, _⟩ | _ | _ <;> rfl
@[simp] theorem stepBefore_memRead (o : Operand) (s : State) (x : Addr) : (o.stepBefore s).memRead x = s.memRead x := by
  rcases o with ⟨_ | _ | _ | _, _⟩ | _ | _ <;> rfl

@[simp] theorem stepAfter_acc (o : Operand) (s : State) : (o.stepAfter s).acc = s.acc := by
  rcases o with ⟨_ | _ | _ | _, _⟩ | _ | _ <;> rfl
@[simp] theorem stepAfter_dr (o : Operand) (s : State) : (o.stepAfter s).dr = s.dr := by
  rcases o with ⟨_ | _ | _ | _, _⟩ | _ | _ <;> rfl
@[simp] theorem stepAfter_cr0 (o : Operand) (s : State) : (o.stepAfter s).cr0 = s.cr0 := by
  rcases o with ⟨_ | _ | _ | _, _⟩ | _ | _ <;> rfl
@[simp] theorem stepAfter_cr1 (o : Operand) (s : State) : (o.stepAfter s).cr1 = s.cr1 := by
  rcases o with ⟨_ | _ | _ | _, _⟩ | _ | _ <;> rfl
@[simp] theorem stepAfter_pcl (o : Operand) (s : State) : (o.stepAfter s).pcl = s.pcl := by
  rcases o with ⟨_ | _ | _ | _, _⟩ | _ | _ <;> rfl
@[simp] theorem stepAfter_spl (o : Operand) (s : State) : (o.stepAfter s).spl = s.spl := by
  rcases o with ⟨_ | _ | _ | _, _⟩ | _ | _ <;> rfl
@[simp] theorem stepAfter_cs (o : Operand) (s : State) : (o.stepAfter s).cs = s.cs := by
  rcases o with ⟨_ | _ | _ | _, _⟩ | _ | _ <;> rfl
@[simp] theorem stepAfter_ds (o : Operand) (s : State) : (o.stepAfter s).ds = s.ds := by
  rcases o with ⟨_ | _ | _ | _, _⟩ | _ | _ <;> rfl
@[simp] theorem stepAfter_ss (o : Operand) (s : State) : (o.stepAfter s).ss = s.ss := by
  rcases o with ⟨_ | _ | _ | _, _⟩ | _ | _ <;> rfl
@[simp] theorem stepAfter_flags (o : Operand) (s : State) : (o.stepAfter s).flags = s.flags := by
  rcases o with ⟨_ | _ | _ | _, _⟩ | _ | _ <;> rfl
@[simp] theorem stepAfter_run (o : Operand) (s : State) : (o.stepAfter s).run = s.run := by
  rcases o with ⟨_ | _ | _ | _, _⟩ | _ | _ <;> rfl
@[simp] theorem stepAfter_pre (o : Operand) (s : State) : (o.stepAfter s).pre = s.pre := by
  rcases o with ⟨_ | _ | _ | _, _⟩ | _ | _ <;> rfl
@[simp] theorem stepAfter_arg (o : Operand) (s : State) : (o.stepAfter s).arg = s.arg := by
  rcases o with ⟨_ | _ | _ | _, _⟩ | _ | _ <;> rfl
@[simp] theorem stepAfter_preValid (o : Operand) (s : State) : (o.stepAfter s).preValid = s.preValid := by
  rcases o with ⟨_ | _ | _ | _, _⟩ | _ | _ <;> rfl
@[simp] theorem stepAfter_argValid (o : Operand) (s : State) : (o.stepAfter s).argValid = s.argValid := by
  rcases o with ⟨_ | _ | _ | _, _⟩ | _ | _ <;> rfl
@[simp] theorem stepAfter_unrec (o : Operand) (s : State) : (o.stepAfter s).unrec = s.unrec := by
  rcases o with ⟨_ | _ | _ | _, _⟩ | _ | _ <;> rfl
@[simp] theorem stepAfter_dev (o : Operand) (s : State) : (o.stepAfter s).dev = s.dev := by
  rcases o with ⟨_ | _ | _ | _, _⟩ | _ | _ <;> rfl
@[simp] theorem stepAfter_host (o : Operand) (s : State) : (o.stepAfter s).host = s.host := by
  rcases o with ⟨_ | _ | _ | _, _⟩ | _ | _ <;> rfl
@[simp] theorem stepAfter_al (o : Operand) (s : State) : (o.stepAfter s).al = s.al := by
  rcases o with ⟨_ | _ | _ | _, _⟩ | _ | _ <;> rfl
@[simp] theorem stepAfter_dl (o : Operand) (s : State) : (o.stepAfter s).dl = s.dl := by
  rcases o with ⟨_ | _ | _ | _, _⟩ | _ | _ <;> rfl
@[simp] theorem stepAfter_mem (o : Operand) (s : State) : (o.stepAfter s).mem = s.mem := by
  rcases o with ⟨_ | _ | _ | _, _⟩ | _ | _ <;> rfl
@[simp] theorem stepAfter_memRead (o : Operand) (s : State) (x : Addr) : (o.stepAfter s).memRead x = s.memRead x := by
  rcases o with ⟨_ | _ | _ | _, _⟩ | _ | _ <;> rfl

/-! ## Reading and writing a location -/

@[simp] theorem locRead_acc (l : Loc) (s : State) : (l.read s).acc = s.acc := by cases l <;> rfl
@[simp] theorem locRead_dr (l : Loc) (s : State) : (l.read s).dr = s.dr := by cases l <;> rfl
@[simp] theorem locRead_cr0 (l : Loc) (s : State) : (l.read s).cr0 = s.cr0 := by cases l <;> rfl
@[simp] theorem locRead_cr1 (l : Loc) (s : State) : (l.read s).cr1 = s.cr1 := by cases l <;> rfl
@[simp] theorem locRead_pcl (l : Loc) (s : State) : (l.read s).pcl = s.pcl := by cases l <;> rfl
@[simp] theorem locRead_spl (l : Loc) (s : State) : (l.read s).spl = s.spl := by cases l <;> rfl
@[simp] theorem locRead_cs (l : Loc) (s : State) : (l.read s).cs = s.cs := by cases l <;> rfl
@[simp] theorem locRead_ds (l : Loc) (s : State) : (l.read s).ds = s.ds := by cases l <;> rfl
@[simp] theorem locRead_ss (l : Loc) (s : State) : (l.read s).ss = s.ss := by cases l <;> rfl
@[simp] theorem locRead_flags (l : Loc) (s : State) : (l.read s).flags = s.flags := by cases l <;> rfl
@[simp] theorem locRead_run (l : Loc) (s : State) : (l.read s).run = s.run := by cases l <;> rfl
@[simp] theorem locRead_pre (l : Loc) (s : State) : (l.read s).pre = s.pre := by cases l <;> rfl
@[simp] theorem locRead_arg (l : Loc) (s : State) : (l.read s).arg = s.arg := by cases l <;> rfl
@[simp] theorem locRead_preValid (l : Loc) (s : State) : (l.read s).preValid = s.preValid := by cases l <;> rfl
@[simp] theorem locRead_argValid (l : Loc) (s : State) : (l.read s).argValid = s.argValid := by cases l <;> rfl
@[simp] theorem locRead_unrec (l : Loc) (s : State) : (l.read s).unrec = s.unrec := by cases l <;> rfl
@[simp] theorem locRead_dev (l : Loc) (s : State) : (l.read s).dev = s.dev := by cases l <;> rfl
@[simp] theorem locRead_host (l : Loc) (s : State) : (l.read s).host = s.host := by cases l <;> rfl
@[simp] theorem locRead_regs (l : Loc) (s : State) : (l.read s).regs = s.regs := by cases l <;> rfl
@[simp] theorem locRead_mem (l : Loc) (s : State) : (l.read s).mem = s.mem := by cases l <;> rfl

/-- `operand_read` leaves the value at the location in DL (R207). -/
@[simp] theorem locRead_dl (l : Loc) (s : State) : (l.read s).dl = l.value s := by cases l <;> rfl

@[simp] theorem locWrite_acc (l : Loc) (v : Word) (s : State) : (l.write v s).acc = s.acc := by cases l <;> rfl
@[simp] theorem locWrite_dr (l : Loc) (v : Word) (s : State) : (l.write v s).dr = s.dr := by cases l <;> rfl
@[simp] theorem locWrite_cr0 (l : Loc) (v : Word) (s : State) : (l.write v s).cr0 = s.cr0 := by cases l <;> rfl
@[simp] theorem locWrite_cr1 (l : Loc) (v : Word) (s : State) : (l.write v s).cr1 = s.cr1 := by cases l <;> rfl
@[simp] theorem locWrite_pcl (l : Loc) (v : Word) (s : State) : (l.write v s).pcl = s.pcl := by cases l <;> rfl
@[simp] theorem locWrite_spl (l : Loc) (v : Word) (s : State) : (l.write v s).spl = s.spl := by cases l <;> rfl
@[simp] theorem locWrite_cs (l : Loc) (v : Word) (s : State) : (l.write v s).cs = s.cs := by cases l <;> rfl
@[simp] theorem locWrite_ds (l : Loc) (v : Word) (s : State) : (l.write v s).ds = s.ds := by cases l <;> rfl
@[simp] theorem locWrite_ss (l : Loc) (v : Word) (s : State) : (l.write v s).ss = s.ss := by cases l <;> rfl
@[simp] theorem locWrite_flags (l : Loc) (v : Word) (s : State) : (l.write v s).flags = s.flags := by cases l <;> rfl
@[simp] theorem locWrite_run (l : Loc) (v : Word) (s : State) : (l.write v s).run = s.run := by cases l <;> rfl
@[simp] theorem locWrite_pre (l : Loc) (v : Word) (s : State) : (l.write v s).pre = s.pre := by cases l <;> rfl
@[simp] theorem locWrite_arg (l : Loc) (v : Word) (s : State) : (l.write v s).arg = s.arg := by cases l <;> rfl
@[simp] theorem locWrite_preValid (l : Loc) (v : Word) (s : State) : (l.write v s).preValid = s.preValid := by cases l <;> rfl
@[simp] theorem locWrite_argValid (l : Loc) (v : Word) (s : State) : (l.write v s).argValid = s.argValid := by cases l <;> rfl
@[simp] theorem locWrite_unrec (l : Loc) (v : Word) (s : State) : (l.write v s).unrec = s.unrec := by cases l <;> rfl
@[simp] theorem locWrite_dev (l : Loc) (v : Word) (s : State) : (l.write v s).dev = s.dev := by cases l <;> rfl
@[simp] theorem locWrite_host (l : Loc) (v : Word) (s : State) : (l.write v s).host = s.host := by cases l <;> rfl

/-- `operand_write` at every memory address (R207). -/
theorem locWrite_memRead (l : Loc) (v : Word) (s : State) (x : Addr) :
    (l.write v s).memRead x = if l = .mem x then v else s.memRead x := by
  cases l with
  | reg r => rfl
  | imm k => rfl
  | mem y =>
    simp only [Loc.write, stMem_eq, memRead_memWrite, Loc.mem.injEq, eq_comm (a := x)]
    rfl

/-- `operand_write` at every register (R207). -/
theorem locWrite_reg (l : Loc) (v : Word) (s : State) (q : RegNum) :
    (l.write v s).reg q = if l = .reg q then v else s.reg q := by
  cases l with
  | mem x => rfl
  | imm k => rfl
  | reg r =>
    simp only [Loc.write, stReg_eq, reg_setReg, Loc.reg.injEq, eq_comm (a := q)]
    rfl

/-- The register step after the access reads as on the registers it found. -/
theorem stepAfter_reg_congr (o : Operand) {s t : State} (h : ∀ q, t.reg q = s.reg q) (q : RegNum) :
    (o.stepAfter t).reg q = (o.stepAfter s).reg q := by
  rcases o with ⟨_ | _ | _ | _, r⟩ | _ | _ <;> simp [Operand.stepAfter, reg_setReg, h]

/-! ## The access patterns (R208) -/

@[simp] theorem load_acc (o : Operand) (s : State) : (o.load s).acc = s.acc := by simp [Operand.load]
@[simp] theorem load_dr (o : Operand) (s : State) : (o.load s).dr = s.dr := by simp [Operand.load]
@[simp] theorem load_cr0 (o : Operand) (s : State) : (o.load s).cr0 = s.cr0 := by simp [Operand.load]
@[simp] theorem load_cr1 (o : Operand) (s : State) : (o.load s).cr1 = s.cr1 := by simp [Operand.load]
@[simp] theorem load_pcl (o : Operand) (s : State) : (o.load s).pcl = s.pcl := by simp [Operand.load]
@[simp] theorem load_spl (o : Operand) (s : State) : (o.load s).spl = s.spl := by simp [Operand.load]
@[simp] theorem load_cs (o : Operand) (s : State) : (o.load s).cs = s.cs := by simp [Operand.load]
@[simp] theorem load_ds (o : Operand) (s : State) : (o.load s).ds = s.ds := by simp [Operand.load]
@[simp] theorem load_ss (o : Operand) (s : State) : (o.load s).ss = s.ss := by simp [Operand.load]
@[simp] theorem load_flags (o : Operand) (s : State) : (o.load s).flags = s.flags := by simp [Operand.load]
@[simp] theorem load_run (o : Operand) (s : State) : (o.load s).run = s.run := by simp [Operand.load]
@[simp] theorem load_pre (o : Operand) (s : State) : (o.load s).pre = s.pre := by simp [Operand.load]
@[simp] theorem load_arg (o : Operand) (s : State) : (o.load s).arg = s.arg := by simp [Operand.load]
@[simp] theorem load_preValid (o : Operand) (s : State) : (o.load s).preValid = s.preValid := by simp [Operand.load]
@[simp] theorem load_argValid (o : Operand) (s : State) : (o.load s).argValid = s.argValid := by simp [Operand.load]
@[simp] theorem load_unrec (o : Operand) (s : State) : (o.load s).unrec = s.unrec := by simp [Operand.load]
@[simp] theorem load_dev (o : Operand) (s : State) : (o.load s).dev = s.dev := by simp [Operand.load]
@[simp] theorem load_host (o : Operand) (s : State) : (o.load s).host = s.host := by simp [Operand.load]
@[simp] theorem load_mem (o : Operand) (s : State) : (o.load s).mem = s.mem := by simp [Operand.load]

/-- The read-only pattern finds the operand's value. -/
@[simp] theorem load_dl (o : Operand) (s : State) : (o.load s).dl = o.value s := by
  simp [Operand.load, Operand.value]

/-- The registers after the read-only pattern: only the form's own step. -/
@[simp] theorem load_regs (o : Operand) (s : State) : (o.load s).regs = (o.stepAfter (o.stepBefore s)).regs := by
  apply regs_ext
  intro q
  exact stepAfter_reg_congr o (fun q => reg_congr (locRead_regs _ _) q) q

@[simp] theorem fetchForUpdate_acc (o : Operand) (s : State) : (o.fetchForUpdate s).acc = s.acc := by
  simp [Operand.fetchForUpdate]
@[simp] theorem fetchForUpdate_dr (o : Operand) (s : State) : (o.fetchForUpdate s).dr = s.dr := by
  simp [Operand.fetchForUpdate]
@[simp] theorem fetchForUpdate_cr0 (o : Operand) (s : State) : (o.fetchForUpdate s).cr0 = s.cr0 := by
  simp [Operand.fetchForUpdate]
@[simp] theorem fetchForUpdate_cr1 (o : Operand) (s : State) : (o.fetchForUpdate s).cr1 = s.cr1 := by
  simp [Operand.fetchForUpdate]
@[simp] theorem fetchForUpdate_pcl (o : Operand) (s : State) : (o.fetchForUpdate s).pcl = s.pcl := by
  simp [Operand.fetchForUpdate]
@[simp] theorem fetchForUpdate_spl (o : Operand) (s : State) : (o.fetchForUpdate s).spl = s.spl := by
  simp [Operand.fetchForUpdate]
@[simp] theorem fetchForUpdate_cs (o : Operand) (s : State) : (o.fetchForUpdate s).cs = s.cs := by
  simp [Operand.fetchForUpdate]
@[simp] theorem fetchForUpdate_ds (o : Operand) (s : State) : (o.fetchForUpdate s).ds = s.ds := by
  simp [Operand.fetchForUpdate]
@[simp] theorem fetchForUpdate_ss (o : Operand) (s : State) : (o.fetchForUpdate s).ss = s.ss := by
  simp [Operand.fetchForUpdate]
@[simp] theorem fetchForUpdate_flags (o : Operand) (s : State) : (o.fetchForUpdate s).flags = s.flags := by
  simp [Operand.fetchForUpdate]
@[simp] theorem fetchForUpdate_run (o : Operand) (s : State) : (o.fetchForUpdate s).run = s.run := by
  simp [Operand.fetchForUpdate]
@[simp] theorem fetchForUpdate_pre (o : Operand) (s : State) : (o.fetchForUpdate s).pre = s.pre := by
  simp [Operand.fetchForUpdate]
@[simp] theorem fetchForUpdate_arg (o : Operand) (s : State) : (o.fetchForUpdate s).arg = s.arg := by
  simp [Operand.fetchForUpdate]
@[simp] theorem fetchForUpdate_preValid (o : Operand) (s : State) : (o.fetchForUpdate s).preValid = s.preValid := by
  simp [Operand.fetchForUpdate]
@[simp] theorem fetchForUpdate_argValid (o : Operand) (s : State) : (o.fetchForUpdate s).argValid = s.argValid := by
  simp [Operand.fetchForUpdate]
@[simp] theorem fetchForUpdate_unrec (o : Operand) (s : State) : (o.fetchForUpdate s).unrec = s.unrec := by
  simp [Operand.fetchForUpdate]
@[simp] theorem fetchForUpdate_dev (o : Operand) (s : State) : (o.fetchForUpdate s).dev = s.dev := by
  simp [Operand.fetchForUpdate]
@[simp] theorem fetchForUpdate_host (o : Operand) (s : State) : (o.fetchForUpdate s).host = s.host := by
  simp [Operand.fetchForUpdate]
@[simp] theorem fetchForUpdate_mem (o : Operand) (s : State) : (o.fetchForUpdate s).mem = s.mem := by
  simp [Operand.fetchForUpdate]

@[simp] theorem fetchForUpdate_dl (o : Operand) (s : State) : (o.fetchForUpdate s).dl = o.value s := by
  simp [Operand.fetchForUpdate, Operand.value]

@[simp] theorem fetchForUpdate_regs (o : Operand) (s : State) : (o.fetchForUpdate s).regs = (o.stepBefore s).regs := by
  simp [Operand.fetchForUpdate]

@[simp] theorem writeBack_acc (o : Operand) (s0 s : State) (v : Word) : (o.writeBack s0 v s).acc = s.acc := by
  simp [Operand.writeBack]
@[simp] theorem writeBack_dr (o : Operand) (s0 s : State) (v : Word) : (o.writeBack s0 v s).dr = s.dr := by
  simp [Operand.writeBack]
@[simp] theorem writeBack_cr0 (o : Operand) (s0 s : State) (v : Word) : (o.writeBack s0 v s).cr0 = s.cr0 := by
  simp [Operand.writeBack]
@[simp] theorem writeBack_cr1 (o : Operand) (s0 s : State) (v : Word) : (o.writeBack s0 v s).cr1 = s.cr1 := by
  simp [Operand.writeBack]
@[simp] theorem writeBack_pcl (o : Operand) (s0 s : State) (v : Word) : (o.writeBack s0 v s).pcl = s.pcl := by
  simp [Operand.writeBack]
@[simp] theorem writeBack_spl (o : Operand) (s0 s : State) (v : Word) : (o.writeBack s0 v s).spl = s.spl := by
  simp [Operand.writeBack]
@[simp] theorem writeBack_cs (o : Operand) (s0 s : State) (v : Word) : (o.writeBack s0 v s).cs = s.cs := by
  simp [Operand.writeBack]
@[simp] theorem writeBack_ds (o : Operand) (s0 s : State) (v : Word) : (o.writeBack s0 v s).ds = s.ds := by
  simp [Operand.writeBack]
@[simp] theorem writeBack_ss (o : Operand) (s0 s : State) (v : Word) : (o.writeBack s0 v s).ss = s.ss := by
  simp [Operand.writeBack]
@[simp] theorem writeBack_flags (o : Operand) (s0 s : State) (v : Word) : (o.writeBack s0 v s).flags = s.flags := by
  simp [Operand.writeBack]
@[simp] theorem writeBack_run (o : Operand) (s0 s : State) (v : Word) : (o.writeBack s0 v s).run = s.run := by
  simp [Operand.writeBack]
@[simp] theorem writeBack_pre (o : Operand) (s0 s : State) (v : Word) : (o.writeBack s0 v s).pre = s.pre := by
  simp [Operand.writeBack]
@[simp] theorem writeBack_arg (o : Operand) (s0 s : State) (v : Word) : (o.writeBack s0 v s).arg = s.arg := by
  simp [Operand.writeBack]
@[simp] theorem writeBack_preValid (o : Operand) (s0 s : State) (v : Word) : (o.writeBack s0 v s).preValid = s.preValid := by
  simp [Operand.writeBack]
@[simp] theorem writeBack_argValid (o : Operand) (s0 s : State) (v : Word) : (o.writeBack s0 v s).argValid = s.argValid := by
  simp [Operand.writeBack]
@[simp] theorem writeBack_unrec (o : Operand) (s0 s : State) (v : Word) : (o.writeBack s0 v s).unrec = s.unrec := by
  simp [Operand.writeBack]
@[simp] theorem writeBack_dev (o : Operand) (s0 s : State) (v : Word) : (o.writeBack s0 v s).dev = s.dev := by
  simp [Operand.writeBack]
@[simp] theorem writeBack_host (o : Operand) (s0 s : State) (v : Word) : (o.writeBack s0 v s).host = s.host := by
  simp [Operand.writeBack]

/-- Memory after the write-back: only the operand's cell, if it is a cell. -/
theorem writeBack_memRead (o : Operand) (s0 s : State) (v : Word) (x : Addr) :
    (o.writeBack s0 v s).memRead x = if o.openLoc s0 = .mem x then v else s.memRead x := by
  simp [Operand.writeBack, locWrite_memRead]

/-- Registers after the write-back: the operand's register, if it is one, and the form's own step. -/
theorem writeBack_reg (o : Operand) (s0 s : State) (v : Word) (h : ∀ q, s.reg q = (o.stepBefore s0).reg q) (q : RegNum) :
    (o.writeBack s0 v s).reg q =
      if o.openLoc s0 = .reg q then v else (o.stepAfter (o.stepBefore s0)).reg q := by
  have step : ∀ r, ((o.openLoc s0).write v s).reg r = if o.openLoc s0 = .reg r then v else (o.stepBefore s0).reg r :=
    fun r => by rw [locWrite_reg, h]
  rcases o with ⟨_ | _ | _ | _, r⟩ | a | k
  · exact step q
  · exact step q
  · simp only [Operand.writeBack, Operand.stepAfter, adjInc_eq, reg_setReg, step]
    simp [Operand.openLoc, Operand.loc]
  · exact step q
  · exact step q
  · exact step q

end Sys2Proof.Machine
end

