-- ==== Sys2Proof/Laws/PerInstr.lean ====
section
/-! SUPPORT. Statements about every instruction as syntax, one lemma per constructor. -/

namespace Sys2Proof.Laws

/-- The encoder writes a well-formed word: one the opcode map gives a meaning, ignored bits 0 (30_encoding.md R122). -/
def CanonicalEncoding.Statement (i : Instr) : Prop := wellFormedWord (encode i).1 (encode i).2 = true

/-- Outside the register-operand and the non-addressed class, whether a word is well formed does not depend on CR0
(R114, R122). -/
theorem wellFormedWord_of_cr1 (c x : Word)
    (h : (decide (0x10#8 ≤ c) && !inRegisterClass c && wellFormedWord c 0x00#8) = true) : wellFormedWord c x = true := by
  simp only [Bool.and_eq_true, decide_eq_true_eq, Bool.not_eq_true'] at h
  obtain ⟨⟨h1, h2⟩, h3⟩ := h
  have h4 : decide (c ≤ 0x0F#8) = false := by
    rw [decide_eq_false_iff_not]; bv_omega
  have h5 : decide (0x01#8 ≤ c ∧ c ≤ 0x0F#8) = false := by simp_all
  simp only [wellFormedWord, unrecognised, rgIgnoredBitsClear, naIgnoredBitsClear, h2, h4, h5] at h3 ⊢
  simpa using h3

/-- The CR1 the encoder writes for DJRNZ (R110). -/
theorem djWord_canonical (r : RegNum) :
    (decide (0x10#8 ≤ djWord r) && !inRegisterClass (djWord r) && wellFormedWord (djWord r) 0x00#8) = true := by
  revert r; decide

/-- The CR1 of formats BM and BP (R112, R118). -/
theorem bitWord_canonical (op : BitVec 5) (b : BitIdx) (h : 16 ≤ op.toNat ∧ op.toNat ≤ 23) :
    (decide (0x10#8 ≤ bitWord op b) && !inRegisterClass (bitWord op b) && wellFormedWord (bitWord op b) 0x00#8) =
      true := by
  revert op b; decide

theorem CanonicalEncoding.movRg (m : Mode) (r : RegNum) : CanonicalEncoding.Statement (.movRg m r) := by
  unfold CanonicalEncoding.Statement; cases m <;> revert r <;> decide
theorem CanonicalEncoding.pushRg (m : Mode) (r : RegNum) : CanonicalEncoding.Statement (.pushRg m r) := by
  unfold CanonicalEncoding.Statement; cases m <;> revert r <;> decide
theorem CanonicalEncoding.popRg (m : Mode) (r : RegNum) : CanonicalEncoding.Statement (.popRg m r) := by
  unfold CanonicalEncoding.Statement; cases m <;> revert r <;> decide
theorem CanonicalEncoding.outxRg (m : Mode) (r : RegNum) : CanonicalEncoding.Statement (.outxRg m r) := by
  unfold CanonicalEncoding.Statement; cases m <;> revert r <;> decide
theorem CanonicalEncoding.notRg (m : Mode) (r : RegNum) : CanonicalEncoding.Statement (.notRg m r) := by
  unfold CanonicalEncoding.Statement; cases m <;> revert r <;> decide
theorem CanonicalEncoding.addRg (m : Mode) (r : RegNum) : CanonicalEncoding.Statement (.addRg m r) := by
  unfold CanonicalEncoding.Statement; cases m <;> revert r <;> decide
theorem CanonicalEncoding.subRg (m : Mode) (r : RegNum) : CanonicalEncoding.Statement (.subRg m r) := by
  unfold CanonicalEncoding.Statement; cases m <;> revert r <;> decide
theorem CanonicalEncoding.mulRg (m : Mode) (r : RegNum) : CanonicalEncoding.Statement (.mulRg m r) := by
  unfold CanonicalEncoding.Statement; cases m <;> revert r <;> decide
theorem CanonicalEncoding.divRg (m : Mode) (r : RegNum) : CanonicalEncoding.Statement (.divRg m r) := by
  unfold CanonicalEncoding.Statement; cases m <;> revert r <;> decide
theorem CanonicalEncoding.andRg (m : Mode) (r : RegNum) : CanonicalEncoding.Statement (.andRg m r) := by
  unfold CanonicalEncoding.Statement; cases m <;> revert r <;> decide
theorem CanonicalEncoding.orRg (m : Mode) (r : RegNum) : CanonicalEncoding.Statement (.orRg m r) := by
  unfold CanonicalEncoding.Statement; cases m <;> revert r <;> decide
theorem CanonicalEncoding.xorRg (m : Mode) (r : RegNum) : CanonicalEncoding.Statement (.xorRg m r) := by
  unfold CanonicalEncoding.Statement; cases m <;> revert r <;> decide
theorem CanonicalEncoding.cmpRg (m : Mode) (r : RegNum) : CanonicalEncoding.Statement (.cmpRg m r) := by
  unfold CanonicalEncoding.Statement; cases m <;> revert r <;> decide
theorem CanonicalEncoding.rdRg (m : Mode) (r : RegNum) : CanonicalEncoding.Statement (.rdRg m r) := by
  unfold CanonicalEncoding.Statement; cases m <;> revert r <;> decide
theorem CanonicalEncoding.incRg (m : Mode) (r : RegNum) : CanonicalEncoding.Statement (.incRg m r) := by
  unfold CanonicalEncoding.Statement; cases m <;> revert r <;> decide
theorem CanonicalEncoding.decRg (m : Mode) (r : RegNum) : CanonicalEncoding.Statement (.decRg m r) := by
  unfold CanonicalEncoding.Statement; cases m <;> revert r <;> decide
theorem CanonicalEncoding.adcRg (m : Mode) (r : RegNum) : CanonicalEncoding.Statement (.adcRg m r) := by
  unfold CanonicalEncoding.Statement; cases m <;> revert r <;> decide
theorem CanonicalEncoding.subbRg (m : Mode) (r : RegNum) : CanonicalEncoding.Statement (.subbRg m r) := by
  unfold CanonicalEncoding.Statement; cases m <;> revert r <;> decide
theorem CanonicalEncoding.xchRg (m : Mode) (r : RegNum) : CanonicalEncoding.Statement (.xchRg m r) := by
  unfold CanonicalEncoding.Statement; cases m <;> revert r <;> decide
theorem CanonicalEncoding.movMd (a : Word) : CanonicalEncoding.Statement (.movMd a) := 
  wellFormedWord_of_cr1 _ _ rfl
theorem CanonicalEncoding.pushMd (a : Word) : CanonicalEncoding.Statement (.pushMd a) := 
  wellFormedWord_of_cr1 _ _ rfl
theorem CanonicalEncoding.outxMd (a : Word) : CanonicalEncoding.Statement (.outxMd a) := 
  wellFormedWord_of_cr1 _ _ rfl
theorem CanonicalEncoding.notMd (a : Word) : CanonicalEncoding.Statement (.notMd a) := 
  wellFormedWord_of_cr1 _ _ rfl
theorem CanonicalEncoding.addMd (a : Word) : CanonicalEncoding.Statement (.addMd a) := 
  wellFormedWord_of_cr1 _ _ rfl
theorem CanonicalEncoding.subMd (a : Word) : CanonicalEncoding.Statement (.subMd a) := 
  wellFormedWord_of_cr1 _ _ rfl
theorem CanonicalEncoding.mulMd (a : Word) : CanonicalEncoding.Statement (.mulMd a) := 
  wellFormedWord_of_cr1 _ _ rfl
theorem CanonicalEncoding.divMd (a : Word) : CanonicalEncoding.Statement (.divMd a) := 
  wellFormedWord_of_cr1 _ _ rfl
theorem CanonicalEncoding.andMd (a : Word) : CanonicalEncoding.Statement (.andMd a) := 
  wellFormedWord_of_cr1 _ _ rfl
theorem CanonicalEncoding.orMd (a : Word) : CanonicalEncoding.Statement (.orMd a) := 
  wellFormedWord_of_cr1 _ _ rfl
theorem CanonicalEncoding.xorMd (a : Word) : CanonicalEncoding.Statement (.xorMd a) := 
  wellFormedWord_of_cr1 _ _ rfl
theorem CanonicalEncoding.cmpMd (a : Word) : CanonicalEncoding.Statement (.cmpMd a) := 
  wellFormedWord_of_cr1 _ _ rfl
theorem CanonicalEncoding.rdMd (a : Word) : CanonicalEncoding.Statement (.rdMd a) := 
  wellFormedWord_of_cr1 _ _ rfl
theorem CanonicalEncoding.incMd (a : Word) : CanonicalEncoding.Statement (.incMd a) := 
  wellFormedWord_of_cr1 _ _ rfl
theorem CanonicalEncoding.decMd (a : Word) : CanonicalEncoding.Statement (.decMd a) := 
  wellFormedWord_of_cr1 _ _ rfl
theorem CanonicalEncoding.adcMd (a : Word) : CanonicalEncoding.Statement (.adcMd a) := 
  wellFormedWord_of_cr1 _ _ rfl
theorem CanonicalEncoding.pushIm (k : Word) : CanonicalEncoding.Statement (.pushIm k) := 
  wellFormedWord_of_cr1 _ _ rfl
theorem CanonicalEncoding.outxIm (k : Word) : CanonicalEncoding.Statement (.outxIm k) := 
  wellFormedWord_of_cr1 _ _ rfl
theorem CanonicalEncoding.addIm (k : Word) : CanonicalEncoding.Statement (.addIm k) := 
  wellFormedWord_of_cr1 _ _ rfl
theorem CanonicalEncoding.subIm (k : Word) : CanonicalEncoding.Statement (.subIm k) := 
  wellFormedWord_of_cr1 _ _ rfl
theorem CanonicalEncoding.mulIm (k : Word) : CanonicalEncoding.Statement (.mulIm k) := 
  wellFormedWord_of_cr1 _ _ rfl
theorem CanonicalEncoding.divIm (k : Word) : CanonicalEncoding.Statement (.divIm k) := 
  wellFormedWord_of_cr1 _ _ rfl
theorem CanonicalEncoding.andIm (k : Word) : CanonicalEncoding.Statement (.andIm k) := 
  wellFormedWord_of_cr1 _ _ rfl
theorem CanonicalEncoding.orIm (k : Word) : CanonicalEncoding.Statement (.orIm k) := 
  wellFormedWord_of_cr1 _ _ rfl
theorem CanonicalEncoding.xorIm (k : Word) : CanonicalEncoding.Statement (.xorIm k) := 
  wellFormedWord_of_cr1 _ _ rfl
theorem CanonicalEncoding.cmpIm (k : Word) : CanonicalEncoding.Statement (.cmpIm k) := 
  wellFormedWord_of_cr1 _ _ rfl
theorem CanonicalEncoding.rdIm (k : Word) : CanonicalEncoding.Statement (.rdIm k) := 
  wellFormedWord_of_cr1 _ _ rfl
theorem CanonicalEncoding.adcIm (k : Word) : CanonicalEncoding.Statement (.adcIm k) := 
  wellFormedWord_of_cr1 _ _ rfl
theorem CanonicalEncoding.jmp (t : Word) : CanonicalEncoding.Statement (.jmp t) := 
  wellFormedWord_of_cr1 _ _ rfl
theorem CanonicalEncoding.call (t : Word) : CanonicalEncoding.Statement (.call t) := 
  wellFormedWord_of_cr1 _ _ rfl
theorem CanonicalEncoding.int (n : Word) : CanonicalEncoding.Statement (.int n) := 
  wellFormedWord_of_cr1 _ _ rfl
theorem CanonicalEncoding.jz (t : Word) : CanonicalEncoding.Statement (.jz t) := 
  wellFormedWord_of_cr1 _ _ rfl
theorem CanonicalEncoding.jnz (t : Word) : CanonicalEncoding.Statement (.jnz t) := 
  wellFormedWord_of_cr1 _ _ rfl
theorem CanonicalEncoding.jc (t : Word) : CanonicalEncoding.Statement (.jc t) := 
  wellFormedWord_of_cr1 _ _ rfl
theorem CanonicalEncoding.jnc (t : Word) : CanonicalEncoding.Statement (.jnc t) := 
  wellFormedWord_of_cr1 _ _ rfl
theorem CanonicalEncoding.jn (t : Word) : CanonicalEncoding.Statement (.jn t) := 
  wellFormedWord_of_cr1 _ _ rfl
theorem CanonicalEncoding.jnn (t : Word) : CanonicalEncoding.Statement (.jnn t) := 
  wellFormedWord_of_cr1 _ _ rfl
theorem CanonicalEncoding.jo (t : Word) : CanonicalEncoding.Statement (.jo t) := 
  wellFormedWord_of_cr1 _ _ rfl
theorem CanonicalEncoding.jno (t : Word) : CanonicalEncoding.Statement (.jno t) := 
  wellFormedWord_of_cr1 _ _ rfl
theorem CanonicalEncoding.djrnz (r : RegNum) (t : Word) : CanonicalEncoding.Statement (.djrnz r t) := 
  wellFormedWord_of_cr1 _ _ (djWord_canonical r)
theorem CanonicalEncoding.nop : CanonicalEncoding.Statement .nop := rfl
theorem CanonicalEncoding.ret : CanonicalEncoding.Statement .ret := rfl
theorem CanonicalEncoding.iret : CanonicalEncoding.Statement .iret := rfl
theorem CanonicalEncoding.ei : CanonicalEncoding.Statement .ei := rfl
theorem CanonicalEncoding.di : CanonicalEncoding.Statement .di := rfl
theorem CanonicalEncoding.rl : CanonicalEncoding.Statement .rl := rfl
theorem CanonicalEncoding.rr : CanonicalEncoding.Statement .rr := rfl
theorem CanonicalEncoding.rlc : CanonicalEncoding.Statement .rlc := rfl
theorem CanonicalEncoding.rrc : CanonicalEncoding.Statement .rrc := rfl
theorem CanonicalEncoding.hlt : CanonicalEncoding.Statement .hlt := rfl
theorem CanonicalEncoding.daa : CanonicalEncoding.Statement .daa := rfl
theorem CanonicalEncoding.dsa : CanonicalEncoding.Statement .dsa := rfl
theorem CanonicalEncoding.ldf : CanonicalEncoding.Statement .ldf := rfl
theorem CanonicalEncoding.stf : CanonicalEncoding.Statement .stf := rfl
theorem CanonicalEncoding.inp : CanonicalEncoding.Statement .inp := rfl
theorem CanonicalEncoding.outp : CanonicalEncoding.Statement .outp := rfl
theorem CanonicalEncoding.clrb (b : BitIdx) (a : Word) : CanonicalEncoding.Statement (.clrb b a) := 
  wellFormedWord_of_cr1 _ _ (bitWord_canonical _ b (by decide))
theorem CanonicalEncoding.setb (b : BitIdx) (a : Word) : CanonicalEncoding.Statement (.setb b a) := 
  wellFormedWord_of_cr1 _ _ (bitWord_canonical _ b (by decide))
theorem CanonicalEncoding.skbc (b : BitIdx) (a : Word) : CanonicalEncoding.Statement (.skbc b a) := 
  wellFormedWord_of_cr1 _ _ (bitWord_canonical _ b (by decide))
theorem CanonicalEncoding.skbs (b : BitIdx) (a : Word) : CanonicalEncoding.Statement (.skbs b a) := 
  wellFormedWord_of_cr1 _ _ (bitWord_canonical _ b (by decide))
theorem CanonicalEncoding.pclrb (b : BitIdx) (p : Word) : CanonicalEncoding.Statement (.pclrb b p) := 
  wellFormedWord_of_cr1 _ _ (bitWord_canonical _ b (by decide))
theorem CanonicalEncoding.psetb (b : BitIdx) (p : Word) : CanonicalEncoding.Statement (.psetb b p) := 
  wellFormedWord_of_cr1 _ _ (bitWord_canonical _ b (by decide))
theorem CanonicalEncoding.pskbc (b : BitIdx) (p : Word) : CanonicalEncoding.Statement (.pskbc b p) := 
  wellFormedWord_of_cr1 _ _ (bitWord_canonical _ b (by decide))
theorem CanonicalEncoding.pskbs (b : BitIdx) (p : Word) : CanonicalEncoding.Statement (.pskbs b p) := 
  wellFormedWord_of_cr1 _ _ (bitWord_canonical _ b (by decide))
theorem CanonicalEncoding.inPort (p : Word) : CanonicalEncoding.Statement (.inPort p) := 
  wellFormedWord_of_cr1 _ _ rfl
theorem CanonicalEncoding.outPort (p : Word) : CanonicalEncoding.Statement (.outPort p) := 
  wellFormedWord_of_cr1 _ _ rfl
theorem CanonicalEncoding.implicitHalt : CanonicalEncoding.Statement .implicitHalt := rfl

end Sys2Proof.Laws
end

