-- ==== Sys2Proof/Laws/Safety.lean ====
section
/-! SUPPORT. Lemmas about the words of Sys2Proof/Safety.lean: how to show that two states look alike, what follows when they
do, and the views of the shared operations. -/

namespace Sys2Proof.Machine

/-! ### `settled` -/

/-- To show that two states agree but for memory and scratch, show each field. -/
theorem settled_congr {s t : State}
    (h_acc : t.acc = s.acc) (h_regs : t.regs = s.regs) (h_dr : t.dr = s.dr) (h_cr0 : t.cr0 = s.cr0)
    (h_cr1 : t.cr1 = s.cr1) (h_pcl : t.pcl = s.pcl) (h_spl : t.spl = s.spl) (h_cs : t.cs = s.cs) (h_ds : t.ds = s.ds)
    (h_ss : t.ss = s.ss) (h_flags : t.flags = s.flags) (h_run : t.run = s.run) (h_pre : t.pre = s.pre)
    (h_arg : t.arg = s.arg) (h_preValid : t.preValid = s.preValid) (h_argValid : t.argValid = s.argValid)
    (h_unrec : t.unrec = s.unrec) (h_dev : t.dev = s.dev) (h_host : t.host = s.host) :
    t.settled = s.settled := by
  cases s; cases t; simp_all [State.settled]

/-- What follows when two states agree but for memory and scratch. -/
theorem fields_of_settled {s t : State} (h : t.settled = s.settled) :
    t.acc = s.acc ∧ t.regs = s.regs ∧ t.dr = s.dr ∧ t.cr0 = s.cr0 ∧ t.cr1 = s.cr1 ∧ t.pcl = s.pcl ∧ t.spl = s.spl ∧
    t.cs = s.cs ∧ t.ds = s.ds ∧ t.ss = s.ss ∧ t.flags = s.flags ∧ t.run = s.run ∧ t.pre = s.pre ∧ t.arg = s.arg ∧
    t.preValid = s.preValid ∧ t.argValid = s.argValid ∧ t.unrec = s.unrec ∧ t.dev = s.dev ∧ t.host = s.host := by
  cases s; cases t; simpa [State.settled] using h

theorem memKept_of_mem {s t : State} (h : t.mem = s.mem) : MemKept s t := fun x => by simp [State.memRead, h]

theorem reg_of_regs {s t : State} (h : t.regs = s.regs) (q : RegNum) : t.reg q = s.reg q := by simp [State.reg, h]

theorem flag_of_flags {s t : State} (h : t.flags = s.flags) (f : Flag) : t.flag f = s.flag f := by simp [State.flag, h]

theorem regsStepped_of_regs {o : Operand} {s t : State} (h : t.regs = (o.stepAfter (o.stepBefore s)).regs) :
    RegsStepped o s t := fun q => reg_of_regs h q

/-- Finding an operand in format RG steps no register but the one it names. -/
theorem rg_step_of_ne (m : Mode) (r : RegNum) (s : State) {q : RegNum} (h : q ≠ r) :
    ((Operand.rg m r).stepAfter ((Operand.rg m r).stepBefore s)).reg q = s.reg q := by
  cases m <;> simp [Operand.stepAfter, Operand.stepBefore, reg_setReg, h]

/-! ### `programView` -/

@[simp] theorem programView_acc (s : State) : s.programView.acc = s.acc := rfl
@[simp] theorem programView_regs (s : State) : s.programView.regs = s.regs := rfl
@[simp] theorem programView_cr0 (s : State) : s.programView.cr0 = s.cr0 := rfl
@[simp] theorem programView_cr1 (s : State) : s.programView.cr1 = s.cr1 := rfl
@[simp] theorem programView_pcl (s : State) : s.programView.pcl = s.pcl := rfl
@[simp] theorem programView_spl (s : State) : s.programView.spl = s.spl := rfl
@[simp] theorem programView_cs (s : State) : s.programView.cs = s.cs := rfl
@[simp] theorem programView_ds (s : State) : s.programView.ds = s.ds := rfl
@[simp] theorem programView_ss (s : State) : s.programView.ss = s.ss := rfl
@[simp] theorem programView_flags (s : State) : s.programView.flags = s.flags := rfl
@[simp] theorem programView_run (s : State) : s.programView.run = s.run := rfl
@[simp] theorem programView_mem (s : State) : s.programView.mem = s.mem := rfl
@[simp] theorem programView_dev (s : State) : s.programView.dev = s.dev := rfl
@[simp] theorem programView_host (s : State) : s.programView.host = s.host := rfl
@[simp] theorem programView_flag (s : State) (f : Flag) : s.programView.flag f = s.flag f := rfl
@[simp] theorem programView_memRead (s : State) (x : Addr) : s.programView.memRead x = s.memRead x := rfl
@[simp] theorem programView_reg (s : State) (q : RegNum) : s.programView.reg q = s.reg q := rfl
@[simp] theorem programView_value (o : Operand) (s : State) : o.value s.programView = o.value s := by
  rcases o with ⟨_ | _ | _ | _, _⟩ | _ | _ <;> rfl
@[simp] theorem programView_openLoc (o : Operand) (s : State) : o.openLoc s.programView = o.openLoc s := by
  rcases o with ⟨_ | _ | _ | _, _⟩ | _ | _ <;> rfl
@[simp] theorem programView_step (o : Operand) (s : State) :
    (o.stepAfter (o.stepBefore s.programView)).regs = (o.stepAfter (o.stepBefore s)).regs := by
  rcases o with ⟨_ | _ | _ | _, _⟩ | _ | _ <;> rfl

/-- To show that a program cannot tell two states apart, show each field it can observe. -/
theorem programView_congr {s t : State}
    (h_acc : t.acc = s.acc) (h_regs : t.regs = s.regs) (h_cr0 : t.cr0 = s.cr0) (h_cr1 : t.cr1 = s.cr1)
    (h_pcl : t.pcl = s.pcl) (h_spl : t.spl = s.spl) (h_cs : t.cs = s.cs) (h_ds : t.ds = s.ds) (h_ss : t.ss = s.ss)
    (h_flags : t.flags = s.flags) (h_run : t.run = s.run) (h_mem : t.mem = s.mem) (h_dev : t.dev = s.dev)
    (h_host : t.host = s.host) :
    t.programView = s.programView := by
  cases s; cases t; simp_all [State.programView]

/-- If a change of state looks at nothing a program cannot observe, it carries equal views to equal views. -/
theorem outcomeView_mapNext {a b : Host.Outcome State Fault Refusal} (h : outcomeView a = outcomeView b) {f : State → State}
    (hf : ∀ s, (f s).programView = (f s.programView).programView) :
    outcomeView (mapNext f a) = outcomeView (mapNext f b) := by
  cases a <;> cases b <;> simp only [outcomeView, mapNext, Host.Outcome.next.injEq, reduceCtorEq] at h ⊢
  · rename_i x y
    rw [hf x, h, ← hf y]
  · exact h

/-! ### The shared operations -/

/-- The in-place operation on an operand, as one state. -/
theorem operandOp_eq {op : AluOp} (h : op.twoOperand = false) (f : Word → Word × Bool) (o : Operand) (s : State) :
    operandOp op f o s =
      .next ((o.writeBack s (f (o.value s)).1 ((o.fetchForUpdate s).snapPre (o.value s))).flagsUpdated op
        (f (o.value s)).1 (f (o.value s)).2 (s.flag .c)) := by
  rw [← fetchForUpdate_dl o s]
  exact updateFlags_of_valid (by simp [State.snapPre]) (fun h2 => absurd (h.symm.trans h2) (by decide))

/-- A non-addressed code is read whatever the low nibble of CR1 (30_encoding.md R111). -/
theorem codeNa_of (c : Word) (i : Instr) (h : decodeNonAddressed 0 c = .ok i) (hc : c ≠ 0) : CodeNa c i := by
  intro x
  have h1 : (((x.setWidth 8).extractLsb' 4 4).toNat) = 0 := by revert x; decide
  unfold decode
  rw [h1]
  show decodeNonAddressed _ c = _
  rw [← h]
  unfold decodeNonAddressed
  split <;> try rfl
  rename_i h2
  exact absurd (BitVec.eq_of_toNat_eq (y := 0#8) h2) hc

end Sys2Proof.Machine
end

