-- ==== Sys2Proof/Tests/Slice0.lean ====
section
/-! SUPPORT. Tests: the well-formedness checks, decoding of words written out from the encoding table, one-step vectors of
spec/95_test_vectors.md, and for every obligation with hypotheses a state and operands that meet them. No expected value is
the model's own: each comes from the section of the spec named. -/

namespace Sys2Proof.Tests

open Sys2Proof Sys2Proof.Machine

/-! ## Well-formedness (30_encoding.md R107, R110, R111, R122)

An `Instr` needs no check, so the ill-formed terms are instruction words: one for each check, and one for each line of
R122's list. -/

theorem test_wellFormed_accepts :
    wellFormedWord 0x51 0x9A = true ∧ wellFormedWord 0x00 0x00 = true ∧ wellFormedWord 0x13 0x40 = true ∧
    wellFormedWord 0xC1 0xFF = true := by decide

theorem test_wellFormed_refuses_rg_ignored_bits :
    wellFormedWord 0x50 0x23 = false ∧ wellFormedWord 0x51 0x44 = false ∧ wellFormedWord 0x50 0x83 = false := by decide

theorem test_wellFormed_refuses_dj_ignored_bit : wellFormedWord 0x19 0x20 = false := by decide

theorem test_wellFormed_refuses_na_ignored_bits : wellFormedWord 0x0F 0x01 = false := by decide

theorem test_wellFormed_refuses_unrecognised :
    wellFormedWord 0x05 0x00 = false ∧ wellFormedWord 0x00 0x11 = false ∧ wellFormedWord 0x28 0x00 = false ∧
    wellFormedWord 0x43 0x00 = false ∧ wellFormedWord 0x70 0x00 = false ∧ wellFormedWord 0x73 0x01 = false ∧
    wellFormedWord 0x7D 0x01 = false ∧ wellFormedWord 0x7E 0x01 = false ∧ wellFormedWord 0xC2 0x20 = false ∧
    wellFormedWord 0xD0 0x00 = false ∧ wellFormedWord 0xF2 0x00 = false := by decide

/-! ## Decoding: a word of every constructor, bit by bit from its row of spec/opcode_table.json -/

theorem test_decode_register_operand :
    decode 0b01010000 0b00001110 = .ok (.movRg .indirect 6) ∧
    decode 0b01010001 0b00010011 = .ok (.pushRg .postInc 3) ∧
    decode 0b01010001 0b10011101 = .ok (.popRg .preDec 5) ∧
    decode 0b01010010 0b00000001 = .ok (.outxRg .direct 1) ∧
    decode 0b01010011 0b00001100 = .ok (.notRg .indirect 4) ∧
    decode 0b01010100 0b00010010 = .ok (.addRg .postInc 2) ∧
    decode 0b01010101 0b00011111 = .ok (.subRg .preDec 7) ∧
    decode 0b01010110 0b00000000 = .ok (.mulRg .direct 0) ∧
    decode 0b01010111 0b00001110 = .ok (.divRg .indirect 6) ∧
    decode 0b01011000 0b00010011 = .ok (.andRg .postInc 3) ∧
    decode 0b01011001 0b00011101 = .ok (.orRg .preDec 5) ∧
    decode 0b01011010 0b00000001 = .ok (.xorRg .direct 1) ∧
    decode 0b01011011 0b00001100 = .ok (.cmpRg .indirect 4) ∧
    decode 0b01011100 0b00010010 = .ok (.rdRg .postInc 2) ∧
    decode 0b01011101 0b00011111 = .ok (.incRg .preDec 7) ∧
    decode 0b01011110 0b00000000 = .ok (.decRg .direct 0) ∧
    decode 0b01011111 0b00001110 = .ok (.adcRg .indirect 6) ∧
    decode 0b11110000 0b00010011 = .ok (.subbRg .postInc 3) ∧
    decode 0b11110001 0b00011101 = .ok (.xchRg .preDec 5) := by decide

theorem test_decode_direct_memory :
    decode 0b01100000 0b01011100 = .ok (.movMd 0x5C) ∧
    decode 0b01100001 0b10000001 = .ok (.pushMd 0x81) ∧
    decode 0b01100010 0b10100110 = .ok (.outxMd 0xA6) ∧
    decode 0b01100011 0b11001011 = .ok (.notMd 0xCB) ∧
    decode 0b01100100 0b11110000 = .ok (.addMd 0xF0) ∧
    decode 0b01100101 0b00010101 = .ok (.subMd 0x15) ∧
    decode 0b01100110 0b00111010 = .ok (.mulMd 0x3A) ∧
    decode 0b01100111 0b01011111 = .ok (.divMd 0x5F) ∧
    decode 0b01101000 0b10000100 = .ok (.andMd 0x84) ∧
    decode 0b01101001 0b10101001 = .ok (.orMd 0xA9) ∧
    decode 0b01101010 0b11001110 = .ok (.xorMd 0xCE) ∧
    decode 0b01101011 0b11110011 = .ok (.cmpMd 0xF3) ∧
    decode 0b01101100 0b00011000 = .ok (.rdMd 0x18) ∧
    decode 0b01101101 0b00111101 = .ok (.incMd 0x3D) ∧
    decode 0b01101110 0b01100010 = .ok (.decMd 0x62) ∧
    decode 0b01101111 0b10000111 = .ok (.adcMd 0x87) := by decide

theorem test_decode_immediate :
    decode 0b01110001 0b10101100 = .ok (.pushIm 0xAC) ∧
    decode 0b01110010 0b11010001 = .ok (.outxIm 0xD1) ∧
    decode 0b01110100 0b11110110 = .ok (.addIm 0xF6) ∧
    decode 0b01110101 0b00011011 = .ok (.subIm 0x1B) ∧
    decode 0b01110110 0b01000000 = .ok (.mulIm 0x40) ∧
    decode 0b01110111 0b01100101 = .ok (.divIm 0x65) ∧
    decode 0b01111000 0b10001010 = .ok (.andIm 0x8A) ∧
    decode 0b01111001 0b10101111 = .ok (.orIm 0xAF) ∧
    decode 0b01111010 0b11010100 = .ok (.xorIm 0xD4) ∧
    decode 0b01111011 0b11111001 = .ok (.cmpIm 0xF9) ∧
    decode 0b01111100 0b00011110 = .ok (.rdIm 0x1E) ∧
    decode 0b01111111 0b01000011 = .ok (.adcIm 0x43) := by decide

theorem test_decode_control_transfer :
    decode 0b01000000 0b01101000 = .ok (.jmp 0x68) ∧
    decode 0b01000001 0b10001101 = .ok (.call 0x8D) ∧
    decode 0b01000010 0b10110010 = .ok (.int 0xB2) ∧
    decode 0b00100000 0b11010111 = .ok (.jz 0xD7) ∧
    decode 0b00100001 0b11111100 = .ok (.jnz 0xFC) ∧
    decode 0b00100010 0b00100001 = .ok (.jc 0x21) ∧
    decode 0b00100011 0b01000110 = .ok (.jnc 0x46) ∧
    decode 0b00100100 0b01101011 = .ok (.jn 0x6B) ∧
    decode 0b00100101 0b10010000 = .ok (.jnn 0x90) ∧
    decode 0b00100110 0b10110101 = .ok (.jo 0xB5) ∧
    decode 0b00100111 0b11011010 = .ok (.jno 0xDA) ∧
    decode 0b00010101 0b11111111 = .ok (.djrnz 5 0xFF) := by decide

theorem test_decode_non_addressed :
    decode 0b00000000 0b00000001 = .ok .nop ∧
    decode 0b00000000 0b00000010 = .ok .ret ∧
    decode 0b00000000 0b00000011 = .ok .iret ∧
    decode 0b00000000 0b00000100 = .ok .ei ∧
    decode 0b00000000 0b00000101 = .ok .di ∧
    decode 0b00000000 0b00000110 = .ok .rl ∧
    decode 0b00000000 0b00000111 = .ok .rr ∧
    decode 0b00000000 0b00001000 = .ok .rlc ∧
    decode 0b00000000 0b00001001 = .ok .rrc ∧
    decode 0b00000000 0b00001010 = .ok .hlt ∧
    decode 0b00000000 0b00001011 = .ok .daa ∧
    decode 0b00000000 0b00001100 = .ok .dsa ∧
    decode 0b00000000 0b00001101 = .ok .ldf ∧
    decode 0b00000000 0b00001110 = .ok .stf ∧
    decode 0b00000000 0b00001111 = .ok .inp ∧
    decode 0b00000000 0b00010000 = .ok .outp ∧
    decode 0b00000000 0b00000000 = .ok .implicitHalt := by decide

theorem test_decode_bit :
    decode 0b10000100 0b01110100 = .ok (.clrb 4 0x74) ∧
    decode 0b10001110 0b10011001 = .ok (.setb 6 0x99) ∧
    decode 0b10010011 0b10111110 = .ok (.skbc 3 0xBE) ∧
    decode 0b10011001 0b11100011 = .ok (.skbs 1 0xE3) ∧
    decode 0b10100100 0b00001000 = .ok (.pclrb 4 0x08) ∧
    decode 0b10101110 0b00101101 = .ok (.psetb 6 0x2D) ∧
    decode 0b10110011 0b01010010 = .ok (.pskbc 3 0x52) ∧
    decode 0b10111001 0b01110111 = .ok (.pskbs 1 0x77) := by decide

theorem test_decode_port :
    decode 0b11000000 0b10011100 = .ok (.inPort 0x9C) ∧
    decode 0b11000001 0b11000001 = .ok (.outPort 0xC1) := by decide

/-- Ignored bits (95_test_vectors.md section 2). -/
theorem test_decode_ignored_bits :
    decode 0x50 0xE3 = .ok (.movRg .direct 3) ∧ decode 0x19 0x20 = .ok (.djrnz 1 0x20) ∧
    decode 0x0F 0x01 = .ok .nop := by decide

/-- The words 95_test_vectors.md section 2 calls unrecognised are refused. -/
theorem test_decode_refuses :
    (decode 0xF2 0x00).toOption = none ∧ (decode 0x70 0x00).toOption = none ∧ (decode 0x43 0x00).toOption = none ∧
    (decode 0x3F 0x00).toOption = none ∧ (decode 0x05 0x00).toOption = none ∧ (decode 0x00 0x11).toOption = none ∧
    (decode 0xC2 0x20).toOption = none ∧ (decode 0xEF 0xFF).toOption = none := by decide

/-! ## One step (95_test_vectors.md sections 1 and 3) -/

/-- A start state of the vectors: running, at offset 0x10 of page 0, every register zero but DS and SS, and these cells. What
no vector lists is left to IMAGE, of which nothing is known. -/
def boot (cells : List (Nat × Word)) : State :=
  cells.foldl (fun s c => s.memWrite (BitVec.ofNat 10 c.1) c.2)
    { State.reset with pcl := 0x10, run := true, al := 0, dev := DeviceSide.fresh }

/-- A device side with no request pending, asked once. -/
def quiet : DeviceSide := { DeviceSide.fresh with pending := [false] }

/-- A device side with a request pending that answers this index. -/
def asking (id : Nat) : DeviceSide := { DeviceSide.fresh with pending := [true], ids := [id] }

/-- Store the word at PCL, take one step, and look at the next state. -/
def after (cr1 cr0 : Word) (s : State) (p : State → Bool) : Bool :=
  match step ((s.memWrite (ea s.cs s.pcl) cr0).memWrite (ea s.cs (s.pcl + 1)) cr1) with
  | .next t => p t
  | .fault _ => false
  | .refused _ => false

/-- The calls made in the one step but for the closing `onTick`, newest first. -/
def calls (t : State) : List CollaboratorCall := t.dev.calls.tail

/-! ### Arithmetic category (section 3.1) -/

theorem test_add_overflow :
    after 0x74 0x01 { boot [] with acc := 0x7F }
      (fun t => t.acc == 0x80 && t.flags == 0x0E && t.pcl == 0x12) = true := by decide

theorem test_add_carry :
    after 0x74 0x01 { boot [] with acc := 0xFF }
      (fun t => t.acc == 0x00 && t.flags == 0x19 && t.pcl == 0x12) = true := by decide

theorem test_adc_half_carry_from_carry_in :
    after 0x7F 0x00 { boot [] with acc := 0x0F, flags := 0x10 }
      (fun t => t.acc == 0x10 && t.flags == 0x08 && t.pcl == 0x12) = true := by decide

theorem test_adc_carry_in_not_in_overflow :
    after 0x7F 0x7F { boot [] with acc := 0x80, flags := 0x10 }
      (fun t => t.acc == 0x00 && t.flags == 0x19 && t.pcl == 0x12) = true := by decide

theorem test_sub_borrow :
    after 0x75 0x01 { boot [] with acc := 0x00 }
      (fun t => t.acc == 0xFF && t.flags == 0x1E && t.pcl == 0x12) = true := by decide

theorem test_sub_half_borrow :
    after 0x75 0x01 { boot [] with acc := 0x10 }
      (fun t => t.acc == 0x0F && t.flags == 0x08 && t.pcl == 0x12) = true := by decide

theorem test_cmp_keeps_acc :
    after 0x7B 0x06 { boot [] with acc := 0x05 }
      (fun t => t.acc == 0x05 && t.flags == 0x1E && t.pcl == 0x12 && t.dr == 0x1E) = true := by decide

theorem test_cmp_borrow_without_sign :
    after 0x7B 0xFF { boot [] with acc := 0x00 }
      (fun t => t.acc == 0x00 && t.flags == 0x18 && t.pcl == 0x12) = true := by decide

theorem test_subb_carry_in :
    after 0xF0 0x00 { (State.setReg 0 0x0F <| boot []) with acc := 0x10, flags := 0x10 }
      (fun t => t.acc == 0x00 && t.flags == 0x09 && t.reg 0 == 0x0F) = true := by decide

theorem test_subb_whole_byte_and_carry :
    after 0xF0 0x00 { (State.setReg 0 0xFF <| boot []) with acc := 0xFF, flags := 0x10 }
      (fun t => t.acc == 0xFF && t.flags == 0x1A && t.reg 0 == 0xFF) = true := by decide

theorem test_mul_low_half :
    after 0x76 0x0B { boot [] with acc := 0x0C }
      (fun t => t.acc == 0x84 && t.flags == 0x06 && t.pcl == 0x12) = true := by decide

theorem test_mul_clears_carry :
    after 0x76 0x05 { boot [] with acc := 0x03, flags := 0x10 }
      (fun t => t.acc == 0x0F && t.flags == 0x00 && t.pcl == 0x12) = true := by decide

theorem test_div_quotient :
    after 0x77 0x07 { boot [] with acc := 0x64 }
      (fun t => t.acc == 0x0E && t.flags == 0x00 && t.pcl == 0x12) = true := by decide

theorem test_div_by_zero_goes_on :
    ∃ t : State, exec (.divIm 0x00) { boot [] with acc := 0x37, flags := 0x1F } = .next t ∧ t.acc = Config.div0 0x37 ∧
      t.pcl = 0x10 ∧ t.run = true :=
  ⟨_, rfl, rfl, rfl, rfl⟩

/-! ### Logical category (section 3.2) -/

theorem test_and_forces_flags :
    after 0x78 0x3C { boot [] with acc := 0xF0, flags := 0x3F, dev := quiet }
      (fun t => t.acc == 0x30 && t.flags == 0x20) = true := by decide

theorem test_or_forces_flags :
    after 0x79 0x01 { boot [] with acc := 0x80, flags := 0x3F, dev := quiet }
      (fun t => t.acc == 0x81 && t.flags == 0x22) = true := by decide

theorem test_xor_zero :
    after 0x7A 0x5A { boot [] with acc := 0x5A, flags := 0x3F, dev := quiet }
      (fun t => t.acc == 0x00 && t.flags == 0x21) = true := by decide

theorem test_xor_forces_flags :
    after 0x7A 0xFF { boot [] with acc := 0x0F, flags := 0x3F, dev := quiet }
      (fun t => t.acc == 0xF0 && t.flags == 0x22) = true := by decide

theorem test_not_in_place :
    after 0x53 0x01 { (State.setReg 1 0xA5 <| boot []) with acc := 0x99, flags := 0x3F, dev := quiet }
      (fun t => t.reg 1 == 0x5A && t.acc == 0x99 && t.flags == 0x20) = true := by decide

theorem test_not_sign :
    after 0x53 0x01 { (State.setReg 1 0x7F <| boot []) with acc := 0x99, flags := 0x3F, dev := quiet }
      (fun t => t.reg 1 == 0x80 && t.acc == 0x99 && t.flags == 0x22) = true := by decide

/-! ### Increment/adjust category (section 3.3) -/

theorem test_inc_wraps :
    after 0x5D 0x05 { (State.setReg 5 0xFF <| boot []) with flags := 0x04 }
      (fun t => t.reg 5 == 0x00 && t.flags == 0x1D) = true := by decide

theorem test_inc_sign :
    after 0x5D 0x05 { (State.setReg 5 0x7F <| boot []) with flags := 0x04 }
      (fun t => t.reg 5 == 0x80 && t.flags == 0x0E) = true := by decide

theorem test_dec_wraps :
    after 0x5E 0x05 { (State.setReg 5 0x00 <| boot []) with flags := 0x04 }
      (fun t => t.reg 5 == 0xFF && t.flags == 0x1E) = true := by decide

theorem test_dec_half_borrow :
    after 0x5E 0x05 { (State.setReg 5 0x10 <| boot []) with flags := 0x04 }
      (fun t => t.reg 5 == 0x0F && t.flags == 0x0C) = true := by decide

theorem test_daa_both_digits :
    after 0x00 0x0B { boot [] with acc := 0x9A, flags := 0x04 }
      (fun t => t.acc == 0x00 && t.flags == 0x1D) = true := by decide

theorem test_daa_incoming_carry :
    after 0x00 0x0B { boot [] with acc := 0x20, flags := 0x14 }
      (fun t => t.acc == 0x80 && t.flags == 0x06) = true := by decide

theorem test_dsa_half_borrow :
    after 0x00 0x0C { boot [] with acc := 0x2D, flags := 0x0C }
      (fun t => t.acc == 0x27 && t.flags == 0x0C) = true := by decide

theorem test_dsa_borrows :
    after 0x00 0x0C { boot [] with acc := 0x05, flags := 0x0C }
      (fun t => t.acc == 0xFF && t.flags == 0x1E) = true := by decide

/-! ### Operand forms (section 3.4) -/

theorem test_rd_post_increment_wraps :
    after 0x5C 0x12 (State.setReg 2 0xFF <| boot [(0x2FF, 0x11), (0x200, 0x22), (0x210, 0x33), (0x20F, 0x44)])
      (fun t => t.acc == 0x11 && t.reg 2 == 0x00) = true := by decide

theorem test_rd_pre_decrement_wraps :
    after 0x5C 0x1A (State.setReg 2 0x00 <| boot [(0x2FF, 0x11), (0x200, 0x22), (0x210, 0x33), (0x20F, 0x44)])
      (fun t => t.acc == 0x11 && t.reg 2 == 0xFF) = true := by decide

theorem test_rd_direct_memory :
    after 0x6C 0x10 (boot [(0x2FF, 0x11), (0x200, 0x22), (0x210, 0x33), (0x20F, 0x44)])
      (fun t => t.acc == 0x33) = true := by decide

theorem test_rd_immediate :
    after 0x7C 0x10 { boot [(0x2FF, 0x11), (0x200, 0x22), (0x210, 0x33), (0x20F, 0x44)] with flags := 0x1E }
      (fun t => t.acc == 0x10 && t.flags == 0x1E) = true := by decide

theorem test_mov_post_increment_wraps :
    after 0x50 0x12 { (State.setReg 2 0xFF <| boot [(0x2FF, 0x11), (0x200, 0x22), (0x210, 0x33), (0x20F, 0x44)]) with
        acc := 0xAB }
      (fun t => t.memRead 0x2FF == 0xAB && t.reg 2 == 0x00 && t.acc == 0xAB) = true := by decide

theorem test_mov_zero_keeps_flags :
    after 0x50 0x00 { boot [] with flags := 0x1E }
      (fun t => t.reg 0 == 0x00 && t.flags == 0x1E) = true := by decide

theorem test_mov_direct_memory :
    after 0x60 0x10 { boot [(0x2FF, 0x11), (0x200, 0x22), (0x210, 0x33), (0x20F, 0x44)] with acc := 0xAB }
      (fun t => t.memRead 0x210 == 0xAB && t.memRead 0x20F == 0x44) = true := by decide

theorem test_inc_direct_memory :
    after 0x6D 0xFF (boot [(0x2FF, 0x11), (0x200, 0x22), (0x210, 0x33), (0x20F, 0x44)])
      (fun t => t.memRead 0x2FF == 0x12) = true := by decide

/-! ### Moves, stack, exchange, port write (section 3.5) -/

theorem test_push_steps_its_pointer :
    after 0x51 0x12 { (State.setReg 2 0x20 <| boot [(0x220, 0x09)]) with spl := 0x10 }
      (fun t => t.memRead 0x30F == 0x09 && t.spl == 0x0F && t.reg 2 == 0x21) = true := by decide

theorem test_push_wraps :
    after 0x51 0x04 (State.setReg 4 0x5A <| boot [])
      (fun t => t.memRead 0x3FF == 0x5A && t.spl == 0xFF && t.reg 4 == 0x5A) = true := by decide

theorem test_push_direct_memory :
    after 0x61 0x80 { boot [(0x280, 0x77)] with spl := 0x80 }
      (fun t => t.memRead 0x37F == 0x77 && t.spl == 0x7F) = true := by decide

theorem test_push_immediate :
    after 0x71 0xC3 { boot [] with spl := 0x01 }
      (fun t => t.memRead 0x300 == 0xC3 && t.spl == 0x00) = true := by decide

theorem test_pop_wraps :
    after 0x51 0x82 { boot [(0x3FF, 0x5A)] with spl := 0xFF }
      (fun t => t.reg 2 == 0x5A && t.spl == 0x00) = true := by decide

theorem test_pop_pre_decrement :
    after 0x51 0x9A { (State.setReg 2 0x31 <| boot [(0x3FE, 0x66)]) with spl := 0xFE }
      (fun t => t.reg 2 == 0x30 && t.memRead 0x230 == 0x66 && t.spl == 0xFF) = true := by decide

theorem test_xch_register :
    after 0xF1 0x03 { (State.setReg 3 0x22 <| boot []) with acc := 0x11 }
      (fun t => t.acc == 0x22 && t.reg 3 == 0x11 && t.flags == 0x00) = true := by decide

theorem test_xch_post_increment :
    after 0xF1 0x13 { (State.setReg 3 0xFF <| boot [(0x2FF, 0x99)]) with acc := 0x11 }
      (fun t => t.acc == 0x99 && t.memRead 0x2FF == 0x11 && t.reg 3 == 0x00) = true := by decide

theorem test_outx_register :
    after 0x52 0x01 { (State.setReg 1 0x20 <| boot []) with acc := 0x07 }
      (fun t => calls t == [.writePort 0x20 0x07]) = true := by decide

theorem test_outx_immediate :
    after 0x72 0xFF { boot [] with acc := 0x80 }
      (fun t => calls t == [.writePort 0xFF 0x80]) = true := by decide

/-! ### Control transfer (section 3.6) -/

theorem test_jmp_at_the_end_of_a_page :
    after 0x40 0x00 { boot [] with pcl := 0xFE }
      (fun t => t.pcl == 0x00 && t.cs == 0) = true := by decide

theorem test_call_pushes_wrapped_offset :
    after 0x41 0x80 { boot [(0x300, 0x55)] with pcl := 0xFE, spl := 0x01 }
      (fun t => t.pcl == 0x80 && t.spl == 0x00 && t.memRead 0x300 == 0x00) = true := by decide

theorem test_call_pushes_return_offset :
    after 0x41 0x80 { boot [] with pcl := 0x20 }
      (fun t => t.pcl == 0x80 && t.spl == 0xFF && t.memRead 0x3FF == 0x22) = true := by decide

theorem test_jz_taken :
    after 0x20 0x50 { boot [] with flags := 0x01 }
      (fun t => t.pcl == 0x50) = true := by decide

theorem test_jz_falls_through :
    after 0x20 0x50 { boot [] with flags := 0xDE }
      (fun t => t.pcl == 0x12) = true := by decide

theorem test_jnz_taken :
    after 0x21 0x50 { boot [] with flags := 0xDE }
      (fun t => t.pcl == 0x50) = true := by decide

theorem test_jnz_falls_through :
    after 0x21 0x50 { boot [] with flags := 0x01 }
      (fun t => t.pcl == 0x12) = true := by decide

theorem test_jc_taken :
    after 0x22 0x50 { boot [] with flags := 0x10 }
      (fun t => t.pcl == 0x50) = true := by decide

theorem test_jc_falls_through :
    after 0x22 0x50 { boot [] with flags := 0xCF }
      (fun t => t.pcl == 0x12) = true := by decide

theorem test_jnc_taken :
    after 0x23 0x50 { boot [] with flags := 0xCF }
      (fun t => t.pcl == 0x50) = true := by decide

theorem test_jnc_falls_through :
    after 0x23 0x50 { boot [] with flags := 0x10 }
      (fun t => t.pcl == 0x12) = true := by decide

theorem test_jn_taken :
    after 0x24 0x50 { boot [] with flags := 0x02 }
      (fun t => t.pcl == 0x50) = true := by decide

theorem test_jn_falls_through :
    after 0x24 0x50 { boot [] with flags := 0xDD }
      (fun t => t.pcl == 0x12) = true := by decide

theorem test_jnn_taken :
    after 0x25 0x50 { boot [] with flags := 0xDD }
      (fun t => t.pcl == 0x50) = true := by decide

theorem test_jnn_falls_through :
    after 0x25 0x50 { boot [] with flags := 0x02 }
      (fun t => t.pcl == 0x12) = true := by decide

theorem test_jo_taken :
    after 0x26 0x50 { boot [] with flags := 0x04 }
      (fun t => t.pcl == 0x50) = true := by decide

theorem test_jo_falls_through :
    after 0x26 0x50 { boot [] with flags := 0xDB }
      (fun t => t.pcl == 0x12) = true := by decide

theorem test_jno_taken :
    after 0x27 0x50 { boot [] with flags := 0xDB }
      (fun t => t.pcl == 0x50) = true := by decide

theorem test_jno_falls_through :
    after 0x27 0x50 { boot [] with flags := 0x04 }
      (fun t => t.pcl == 0x12) = true := by decide

theorem test_djrnz_to_zero_falls_through :
    after 0x11 0x20 { (State.setReg 1 0x01 <| boot []) with pcl := 0x24, flags := 0x1F }
      (fun t => t.pcl == 0x26 && t.reg 1 == 0x00 && t.flags == 0x1F) = true := by decide

theorem test_djrnz_from_zero_jumps :
    after 0x11 0x20 { boot [] with pcl := 0x24 }
      (fun t => t.pcl == 0x20 && t.reg 1 == 0xFF) = true := by decide

/-! ### Interrupts (sections 1, 3.6, 3.11) -/

theorem test_int_enters :
    after 0x42 0x04 { boot [(0x008, 0x90), (0x009, 0x01)] with pcl := 0x30, flags := 0x3F, dev := quiet }
      (fun t => t.pcl == 0x90 && t.cs == 1 && t.spl == 0xFE && t.flags == 0x1F && t.memRead 0x3FF == 0x32 &&
        t.memRead 0x3FE == 0xFC) = true := by decide

theorem test_int_through_zero_vector_halts :
    after 0x42 0x05 { boot [(0x00A, 0x00), (0x00B, 0x00)] with pcl := 0x30, flags := 0x20, dev := quiet }
      (fun t => !t.run && t.pcl == 0x00 && t.memRead 0x3FF == 0x32 && t.memRead 0x3FE == 0x80 &&
        t.flags == 0x00) = true := by decide

theorem test_iret_restores :
    after 0x00 0x03 { boot [(0x3FE, 0x86), (0x3FF, 0x32)] with spl := 0xFE, flags := 0xC0, dev := quiet }
      (fun t => t.cs == 2 && t.flags == 0xE1 && t.pcl == 0x32 && t.spl == 0x00 &&
        calls t == [.hasPendingInterrupt false, .clearInterruptAcknowledge]) = true := by decide

theorem test_ei_takes_effect_at_once :
    after 0x00 0x04 { boot [(0x002, 0x70)] with dev := asking 1 }
      (fun t => t.memRead 0x3FF == 0x12 && t.memRead 0x3FE == 0x80 && t.pcl == 0x70 && t.flags == 0x00) = true := by decide

theorem test_ei_sets_the_flag :
    after 0x00 0x04 { boot [] with dev := quiet }
      (fun t => t.flags == 0x20 && t.pcl == 0x12) = true := by decide

theorem test_di_takes_effect_at_once :
    after 0x00 0x05 { boot [] with flags := 0x20, dev := asking 1 }
      (fun t => t.flags == 0x00 && t.pcl == 0x12 && calls t == []) = true := by decide

theorem test_di_keeps_the_other_flags :
    after 0x00 0x05 { boot [] with flags := 0x31, dev := quiet }
      (fun t => t.flags == 0x11) = true := by decide

theorem test_interrupt_after_an_instruction :
    after 0x74 0x01 { boot [(0x006, 0x80), (0x007, 0x01)] with acc := 0x7F, flags := 0x20, dev := asking 3 }
      (fun t => t.acc == 0x80 && t.memRead 0x3FF == 0x12 && t.memRead 0x3FE == 0xB8 && t.spl == 0xFE &&
        t.cr0 == 0x80 && t.cr1 == 0x01 && t.cs == 1 && t.pcl == 0x80 && t.flags == 0x0E &&
        calls t == [.acknowledgeInterrupt 3, .hasPendingInterrupt true]) = true := by decide

theorem test_interrupt_index_wraps :
    after 0x00 0x01 { boot [(0x006, 0x44), (0x007, 0xFE)] with flags := 0x20, dev := asking 0x83 }
      (fun t => t.pcl == 0x44 && t.cs == 2) = true := by decide

theorem test_interrupt_after_an_unrecognised_word :
    after 0xD0 0x00 { boot [(0x012, 0x30)] with flags := 0x20, dev := asking 9 }
      (fun t => t.unrec && t.memRead 0x3FF == 0x12 && t.pcl == 0x30) = true := by decide

/-! ### Non-addressed instructions (section 3.7) -/

theorem test_nop_wraps_the_offset :
    after 0x00 0x01 { boot [] with pcl := 0xFF, acc := 0x12, flags := 0x1F }
      (fun t => t.pcl == 0x01 && t.cs == 0 && t.acc == 0x12 && t.flags == 0x1F) = true := by decide

theorem test_ret_pops :
    after 0x00 0x02 { boot [(0x3FF, 0x22)] with spl := 0xFF }
      (fun t => t.pcl == 0x22 && t.spl == 0x00) = true := by decide

theorem test_rl_clear :
    after 0x00 0x06 { boot [] with acc := 0x81, flags := 0x00 }
      (fun t => t.acc == 0x03 && t.flags == 0x10) = true := by decide

theorem test_rl_carry :
    after 0x00 0x06 { boot [] with acc := 0x80, flags := 0x10 }
      (fun t => t.acc == 0x01 && t.flags == 0x10) = true := by decide

theorem test_rr_clear :
    after 0x00 0x07 { boot [] with acc := 0x81, flags := 0x00 }
      (fun t => t.acc == 0xC0 && t.flags == 0x10) = true := by decide

theorem test_rr_carry :
    after 0x00 0x07 { boot [] with acc := 0x80, flags := 0x10 }
      (fun t => t.acc == 0x40 && t.flags == 0x00) = true := by decide

theorem test_rlc_clear :
    after 0x00 0x08 { boot [] with acc := 0x81, flags := 0x00 }
      (fun t => t.acc == 0x02 && t.flags == 0x10) = true := by decide

theorem test_rlc_carry :
    after 0x00 0x08 { boot [] with acc := 0x00, flags := 0x10 }
      (fun t => t.acc == 0x01 && t.flags == 0x00) = true := by decide

theorem test_rrc_clear :
    after 0x00 0x09 { boot [] with acc := 0x81, flags := 0x00 }
      (fun t => t.acc == 0x40 && t.flags == 0x10) = true := by decide

theorem test_rrc_carry :
    after 0x00 0x09 { boot [] with acc := 0x00, flags := 0x10 }
      (fun t => t.acc == 0x80 && t.flags == 0x00) = true := by decide

theorem test_hlt_stops_without_interrupt :
    after 0x00 0x0A { boot [] with flags := 0x20, dev := asking 1 }
      (fun t => !t.run && t.pcl == 0x12 && calls t == []) = true := by decide

theorem test_all_zero_word_halts :
    after 0x00 0x00 { boot [] with acc := 0x55, flags := 0x20, dev := asking 1 }
      (fun t => !t.run && t.pcl == 0x12 && !t.unrec && t.acc == 0x55 && t.flags == 0x20 && t.spl == 0x00 &&
        calls t == []) = true := by decide

theorem test_ldf_copies_all_flags :
    after 0x00 0x0D { boot [] with flags := 0xB5, dev := quiet }
      (fun t => t.acc == 0xB5 && t.flags == 0xB5) = true := by decide

theorem test_stf_writes_all_flags :
    after 0x00 0x0E { boot [] with acc := 0xDF, flags := 0x20, dev := quiet }
      (fun t => t.flags == 0xDF && t.dr == 0x00) = true := by decide

theorem test_inp_does_nothing :
    after 0x00 0x0F { boot [] with acc := 0x12 }
      (fun t => t.acc == 0x12 && calls t == []) = true := by decide

theorem test_outp_does_nothing :
    after 0x00 0x10 { boot [] with acc := 0x12 }
      (fun t => t.acc == 0x12 && calls t == []) = true := by decide

/-! ### Bit instructions and ports (section 3.8) -/

theorem test_setb_sets :
    after 0x8B 0x40 (boot [(0x240, 0x01)])
      (fun t => t.memRead 0x240 == 0x09 && t.pcl == 0x12 && t.flags == 0x00) = true := by decide

theorem test_clrb_clears_the_top_bit :
    after 0x87 0x40 (boot [(0x240, 0xFF)])
      (fun t => t.memRead 0x240 == 0x7F && t.pcl == 0x12 && t.flags == 0x00) = true := by decide

theorem test_skbs_skips :
    after 0x9B 0x40 (boot [(0x240, 0x09)])
      (fun t => t.memRead 0x240 == 0x09 && t.pcl == 0x14 && t.flags == 0x00) = true := by decide

theorem test_skbs_goes_on :
    after 0x9B 0x40 (boot [(0x240, 0x01)])
      (fun t => t.memRead 0x240 == 0x01 && t.pcl == 0x12 && t.flags == 0x00) = true := by decide

theorem test_skbc_skips :
    after 0x93 0x40 (boot [(0x240, 0x01)])
      (fun t => t.memRead 0x240 == 0x01 && t.pcl == 0x14 && t.flags == 0x00) = true := by decide

theorem test_skbc_goes_on :
    after 0x93 0x40 (boot [(0x240, 0x09)])
      (fun t => t.memRead 0x240 == 0x09 && t.pcl == 0x12 && t.flags == 0x00) = true := by decide

theorem test_psetb_calls :
    after 0xA8 0x20 (boot [])
      (fun t => calls t == [.writePortBit 0x20 0 true]) = true := by decide

theorem test_pclrb_calls :
    after 0xA7 0x20 (boot [])
      (fun t => calls t == [.writePortBit 0x20 7 false]) = true := by decide

theorem test_pskbs_skips :
    after 0xB9 0x21 { boot [] with dev := { DeviceSide.fresh with bits := [true] } }
      (fun t => t.pcl == 0x14 && calls t == [.readPortBit 0x21 1 true]) = true := by decide

theorem test_pskbs_goes_on :
    after 0xB9 0x21 { boot [] with dev := { DeviceSide.fresh with bits := [false] } }
      (fun t => t.pcl == 0x12 && calls t == [.readPortBit 0x21 1 false]) = true := by decide

theorem test_pskbc_goes_on :
    after 0xB1 0x21 { boot [] with dev := { DeviceSide.fresh with bits := [true] } }
      (fun t => t.pcl == 0x12 && calls t == [.readPortBit 0x21 1 true]) = true := by decide

theorem test_pskbc_skips :
    after 0xB1 0x21 { boot [] with dev := { DeviceSide.fresh with bits := [false] } }
      (fun t => t.pcl == 0x14 && calls t == [.readPortBit 0x21 1 false]) = true := by decide

theorem test_in_reads_the_port :
    after 0xC0 0x20 { boot [] with dev := { DeviceSide.fresh with words := [0x5A] } }
      (fun t => t.acc == 0x5A && t.flags == 0x00 && calls t == [.readPort 0x20 0x5A]) = true := by decide

theorem test_out_writes_the_port :
    after 0xC1 0x20 { boot [] with acc := 0x07 }
      (fun t => t.acc == 0x07 && calls t == [.writePort 0x20 0x07]) = true := by decide

/-! ### Unrecognised words (section 3.9) -/

theorem test_unrecognised_word_goes_on :
    after 0x70 0x33 { boot [] with acc := 0x12, flags := 0x1F }
      (fun t => t.pcl == 0x12 && t.unrec && t.run && t.acc == 0x12 && t.flags == 0x1F && t.cr1 == 0x70 &&
        t.cr0 == 0x33) = true := by decide

/-! ### Reset and the host (sections 3.10; 70_reset_and_hazards.md R376 to R380) -/

/-- Section 3.10, with the reset vector at 0x000. -/
theorem test_reset_sequence :
    let t := State.resetSequence 0
      { boot [(0x000, 0x40), (0x001, 0xEE), (0x002, 0x55), (0x3FF, 0x99)] with
        acc := 0x12, flags := 0xFF, cs := 1, ds := 0, ss := 1, spl := 0x80, dr := 0x33, cr0 := 0x09, cr1 := 0x09
        unrec := true }
    t.acc = 0x00 ∧ t.flags = 0x00 ∧ t.cs = 0 ∧ t.ds = 2 ∧ t.ss = 3 ∧ t.spl = 0x00 ∧ t.pcl = 0x40 ∧ t.run = false ∧
    t.unrec = false ∧ t.memRead 0x000 = 0x40 ∧ t.memRead 0x001 = 0x00 ∧ t.memRead 0x002 = 0x55 ∧
    t.memRead 0x3FF = 0x99 ∧ t.dev.calls = [.onReset] := by decide

theorem test_poke_in_range :
    (match step { boot [] with host := [some (.poke (.memory 1023) 255)] } with
      | .next t => t.memRead 0x3FF == 0xFF && t.dev.calls == [.onStateChanged]
      | _ => false) = true := by decide

theorem test_poke_out_of_range :
    (match step { boot [] with host := [some (.poke .cs 4)] } with
      | .next t => t.cs == 0 && t.dev.calls == [] && t.host == []
      | _ => false) = true := by decide

theorem test_step_request_runs_one_tick :
    (match step { boot [(0x010, 0x01), (0x011, 0x00)] with run := false, host := [some .step] } with
      | .next t => t.pcl == 0x12 && !t.run
      | _ => false) = true := by decide

/-! ## Witnesses: for every obligation with hypotheses, a state and operands that meet them -/

theorem witness_EncodeOfDecode :
    wellFormedWord 0x51 0x9F = true ∧ wellFormedWord 0x17 0xFF = true ∧ wellFormedWord 0x00 0x10 = true := by decide

theorem witness_RefusedWordsAreThoseListed : unrecognised 0xF2 0x00 = true ∧ unrecognised 0xF1 0x00 = false := by decide

theorem witness_IgnoredBitsSelectNothing :
    inRegisterClass 0x50 = true ∧ inRegisterClass 0xF1 = true ∧ (0x5F : Word) ≠ 0x51 ∧ inRegisterClass 0x5F = true ∧
    (0x01 : Word) ≠ 0 := by decide

/-- `ADD #0x01` at 0x10; the second state has a silent boundary queued before a request. -/
theorem witness_StepRunsTheDecodedInstruction :
    let s := boot [(0x010, 0x01), (0x011, 0x74)]
    let s' : State := { s with host := [none, some .stop] }
    (s.run = true ∧ s.host.headD none = none ∧
      decode (s.memRead (ea s.cs (s.pcl + 1))) (s.memRead (ea s.cs s.pcl)) = .ok (.addIm 0x01)) ∧
    s'.run = true ∧ s'.host.headD none = none ∧
    decode (s'.memRead (ea s'.cs (s'.pcl + 1))) (s'.memRead (ea s'.cs s'.pcl)) = .ok (.addIm 0x01) := by decide

/-- A state that halts by RUN, one that halts by the latches, and one that goes on. -/
theorem witness_TickEndsInHaltTestThenInterruptCheck :
    let halts (s : State) : Prop := s.run = false ∨ (s.cr0 = 0x00 ∧ s.cr1 = 0x00)
    halts { boot [] with run := false, cr0 := 0x01 } ∧ halts (boot []) ∧ ¬ halts { boot [] with cr1 := 0x01 } := by decide

/-- The three cases of the check. -/
theorem witness_InterruptCheckAcceptsOnlyWhenEnabled :
    let idle : State := { boot [] with flags := 0x20, dev := quiet }
    let asks : State := { boot [] with flags := 0x20, dev := asking 3 }
    (boot []).flag .i = false ∧ (idle.flag .i = true ∧ idle.dev.pendingAnswer = false) ∧
    asks.flag .i = true ∧ asks.dev.pendingAnswer = true := by decide

theorem witness_UnrecognisedWordSetsTheConditionLatch :
    let meets (s : State) : Prop :=
      s.run = true ∧ s.host.headD none = none ∧
        unrecognised (s.memRead (ea s.cs (s.pcl + 1))) (s.memRead (ea s.cs s.pcl)) = true
    meets (boot [(0x010, 0x12), (0x011, 0xD0)]) ∧
    meets { boot [(0x010, 0x12), (0x011, 0xD0)] with host := [none, some .stop] } := by decide

theorem witness_AllZeroWordHalts :
    let meets (s : State) : Prop :=
      s.run = true ∧ s.host.headD none = none ∧
        s.memRead (ea s.cs (s.pcl + 1)) = 0x00 ∧ s.memRead (ea s.cs s.pcl) = 0x00
    let s : State := { boot [(0x000, 0x00), (0x0FF, 0x00)] with pcl := 0xFF }
    meets s ∧ meets { s with host := [none, some .stop] } := by decide

/-- A silent host, with nothing queued and with a request queued after a silent boundary. -/
theorem witness_HostRunStopStepSnapshot :
    let meets (s : State) : Prop := s.run = false ∧ s.host.headD none = none
    meets State.reset ∧ meets { State.reset with host := [none, some .run] } := by decide

/-- `MOV [0x10]` from a state with the invariant. -/
theorem witness_StepKeepsTheInvariant :
    ∃ s t : State, Invariant s ∧ step s = .next t ∧ t.memRead 0x210 = 0xAB := by
  refine ⟨{ boot [(0x010, 0x10), (0x011, 0x60)] with acc := 0xAB }, _, ⟨?_, ?_, ?_⟩, rfl, ?_⟩ <;> decide

/-- Two different states with the same view. -/
theorem witness_ScratchDoesNotLeak :
    let s := boot [(0x010, 0x01), (0x011, 0x74)]
    let s' : State := { s with al := 0x155, dl := 0xAA, dr := 0x1F, pre := 0x03, argValid := true, unrec := true }
    s ≠ s' ∧ s.programView = s'.programView := by decide

theorem witness_OnlyTheNamedRegisterIsWritten :
    (Instr.incRg .direct 7).namedReg ≠ some 6 ∧ (Instr.djrnz 0 0x20).namedReg ≠ some 1 ∧
    Instr.ldf.namedReg ≠ some 0 := by decide

/-- For each list an instruction outside it that writes some other place. -/
theorem witness_OnlyTheListedInstructionsWriteARegister :
    (Instr.cmpIm 0x05).mnemonic ∉ accWriters ∧ Instr.ldf.mnemonic ∉ pclWriters ∧
    (Instr.jmp 0x40).mnemonic ∉ splWriters ∧ (Instr.call 0x40).mnemonic ∉ csWriters ∧
    Instr.stf.mnemonic ∉ flagUpdaters ∧ Instr.iret.mnemonic ≠ .int ∧
    (Instr.nop.mnemonic ≠ .hlt ∧ Instr.nop.mnemonic ≠ .implicitHalt) ∧ Instr.inp.mnemonic ∉ deviceCallers := by decide

/-- For each flag an instruction outside its list. -/
theorem witness_OnlyTheListedInstructionsWriteAFlag :
    Instr.ei.mnemonic ∉ flagWriters .z ∧ Instr.ei.mnemonic ∉ flagWriters .n ∧
    (Instr.incRg .direct 0).mnemonic ∉ flagWriters .o ∧ Instr.rl.mnemonic ∉ flagWriters .a ∧
    Instr.ldf.mnemonic ∉ flagWriters .c ∧ (Instr.addIm 0x01).mnemonic ∉ flagWriters .i ∧
    Instr.iret.mnemonic ∉ flagWriters .u6 ∧ Instr.iret.mnemonic ∉ flagWriters .u7 := by decide

theorem witness_OnlyTheListedInstructionsWriteMemory :
    (Instr.rdMd 0x40).mnemonic ∉ memoryWriters ∧ (Instr.skbs 7 0x40).mnemonic ∉ memoryWriters := by decide

theorem witness_StatusWordHoldsSegmentAndFlags :
    Flag.z ≠ .u6 ∧ Flag.z ≠ .u7 ∧ Flag.i ≠ .u6 ∧ Flag.i ≠ .u7 := by decide

theorem witness_PushStoresTheOperandOnTheStack : (0x7F : Word).getLsbD 7 = false := by decide

theorem witness_PopLoadsTheOperandFromTheStack : (0x80 : Word).getLsbD 7 = true := by decide

/-- The register cleared between the PUSH and the POP (95_test_vectors.md section 3.5). -/
theorem witness_PopUndoesPush :
    ∃ t u : State, exec (.pushRg .direct 3) (State.setReg 3 0xA7 { boot [] with spl := 0x55 }) = .next t ∧ u.reg 3 = 0x00 ∧
      u.ss = t.ss ∧ u.spl = t.spl ∧ u.memRead (ea t.ss t.spl) = t.memRead (ea t.ss t.spl) := by
  refine ⟨_, State.setReg 3 0x00 { boot [(0x354, 0xA7)] with spl := 0x54 }, rfl, ?_, ?_, ?_, ?_⟩ <;> decide

/-- Scenario S9: a subroutine that changed ACC and CS. -/
theorem witness_RetUndoesCall :
    ∃ t u : State, exec (.call 0x80) { boot [] with pcl := 0x22, spl := 0x40 } = .next t ∧ u.acc = 0x99 ∧
      u.ss = t.ss ∧ u.spl = t.spl ∧ u.memRead (ea t.ss t.spl) = t.memRead (ea t.ss t.spl) := by
  refine ⟨_, { boot [(0x33F, 0x22)] with spl := 0x3F, acc := 0x99, cs := 1 }, rfl, ?_, ?_, ?_, ?_⟩ <;> decide

/-- Scenario S10: a handler that changed the flags to 0x0E, after INT and after an accepted interrupt. -/
theorem witness_IretUndoesTheEntry :
    let held (t u : State) : Prop :=
      u.ss = t.ss ∧ u.spl = t.spl ∧ u.memRead (ea t.ss t.spl) = t.memRead (ea t.ss t.spl) ∧
        u.memRead (ea t.ss (t.spl + 1)) = t.memRead (ea t.ss (t.spl + 1)) ∧ u.flags = 0x0E
    let s : State := { boot [(0x008, 0x90), (0x009, 0x01)] with pcl := 0x32, flags := 0x3F }
    let u : State := { boot [(0x3FE, 0xFC), (0x3FF, 0x32)] with spl := 0xFE, flags := 0x0E }
    (∃ t, exec (.int 4) s = .next t ∧ held t u) ∧ held s.accept u := by
  refine ⟨⟨_, rfl, ?_, ?_, ?_, ?_, ?_⟩, ?_, ?_, ?_, ?_, ?_⟩ <;> decide

theorem witness_RotatesMoveEachBitByOne : (0 : Nat) < 8 ∧ (7 : Nat) < 8 := by decide

theorem witness_SetbClrbWriteOneBit : ea 2 0xFF ≠ ea 2 0xFE ∧ ea 2 0xFF ≠ ea 3 0x00 := by decide

end Sys2Proof.Tests
end

section
/-! PROOFS. Reset and the host's requests at a tick boundary (70_reset_and_hazards.md). -/

namespace Sys2Proof.Proofs

open Sys2Proof.Machine

/-! ## Reset -/

/-- The reset sequence (R370) as one state: PCL is read before the cell after the reset vector is cleared. -/
theorem resetSequence_eq (rva : Fin 1023) (s : State) :
    s.resetSequence rva =
      (({ s with
          acc := 0x00, regs := Vector.replicate 8 0x00, dr := 0x00, cr0 := 0x00, cr1 := 0x00
          pcl := s.memRead (BitVec.ofNat 10 rva), spl := 0x00, cs := 0, ds := 2, ss := 3, flags := 0x00
          al := BitVec.ofNat 10 (rva + 1), dl := 0x00, pre := 0x00, arg := 0x00, preValid := false
          argValid := false, unrec := false, run := false } : State).memWrite
        (BitVec.ofNat 10 (rva + 1)) 0x00).call .onReset := rfl

/-- A register file of eight zeros holds zero in every register. -/
theorem reg_of_replicate {s : State} {v : Word} (h : s.regs = Vector.replicate 8 v) (q : RegNum) : s.reg q = v := by
  simp [State.reg, h, Vector.get_eq_getElem]

/-- The address of the cell after the reset vector is below `MEMSIZE`, so no reduction takes place (D2). -/
theorem resetVector_succ_toNat (rva : Fin 1023) : (BitVec.ofNat 10 (rva + 1)).toNat = rva + 1 := by
  have h := rva.isLt
  rw [BitVec.toNat_ofNat]
  omega

/-- Settles O15. -/
theorem resetSequenceLeavesTheResetValues : Obligations.ResetSequenceLeavesTheResetValues := by
  refine ⟨fun rva s => ?_, fun s rest => rfl⟩
  rw [resetSequence_eq]
  refine ⟨⟨rfl, reg_of_replicate rfl, ?_⟩, rfl, fun y => ?_, rfl, rfl⟩
  · exact ⟨rfl, rfl, rfl, rfl, rfl, rfl, rfl, rfl, rfl, rfl, rfl, rfl, rfl, rfl⟩
  · simp only [call_memRead, memRead_memWrite]
    rfl

/-- What a cell of the reset state reads as: zero after the reset vector, else what IMAGE gives it (R61, R370). -/
theorem reset_memRead (x : Addr) :
    State.reset.memRead x =
      if x = BitVec.ofNat 10 (Config.resetVectorAddr + 1) then 0x00 else Config.image x := by
  have hread : State.reset.memRead x = Memory.unlisted x.toNat := rfl
  rw [hread]
  split
  case isTrue hx => rw [hx, resetVector_succ_toNat, Memory.unlisted_cleared]
  case isFalse hx =>
    have hne : x.toNat ≠ Config.resetVectorAddr.val + 1 := fun h =>
      hx (BitVec.eq_of_toNat_eq (h.trans (resetVector_succ_toNat _).symm))
    rw [Memory.unlisted_image hne, BitVec.ofNat_toNat, BitVec.setWidth_eq]

/-- Settles O16. -/
theorem resetStateHoldsTheResetValues : Obligations.ResetStateHoldsTheResetValues := by
  have hpcl : State.reset.pcl = Config.image (BitVec.ofNat 10 Config.resetVectorAddr) :=
    Memory.unlisted_image (Nat.ne_of_lt (Nat.lt_succ_self _))
  refine ⟨⟨rfl, reg_of_replicate rfl, ?_⟩, hpcl, reset_memRead, ?_⟩
  · exact ⟨rfl, rfl, rfl, rfl, rfl, rfl, rfl, rfl, rfl, rfl, rfl, rfl, rfl, rfl⟩
  · have hvector : State.reset.memRead (BitVec.ofNat 10 Config.resetVectorAddr) = State.reset.pcl := by
      have hlt := Config.resetVectorAddr.isLt
      have hto : (BitVec.ofNat 10 Config.resetVectorAddr).toNat = Config.resetVectorAddr := by
        rw [BitVec.toNat_ofNat]
        omega
      show Memory.read [] (BitVec.ofNat 10 Config.resetVectorAddr).toNat = Memory.read [] Config.resetVectorAddr
      rw [hto]
    rw [resetSequence_eq, hvector, State.memWrite, resetVector_succ_toNat]
    rfl

/-! ## The host at a tick boundary -/

/-- At a boundary without a request the core runs or idles, and the boundary is used up (R376; log 10). -/
theorem step_of_silent {s : State} (h : s.host.headD none = none) :
    step s = runOrIdle { s with host := s.host.tail } := by
  cases s
  rename_i host
  rcases host with _ | ⟨_ | r, rest⟩
  · rfl
  · rfl
  · exact absurd h (Option.some_ne_none r)

/-- Settles O13. -/
theorem hostRunStopStepSnapshot : Obligations.HostRunStopStepSnapshot := by
  refine ⟨fun s hrun hhost => ?_, fun s rest => ⟨rfl, rfl, rfl, rfl⟩⟩
  rw [step_of_silent hhost, runOrIdle]
  exact if_neg (by simp [hrun])

/-! ## The stack -/

/-- A push stores DL in the cell below the top and no other (R26). -/
theorem memStored_pushDl (s : State) : MemStored (ea s.ss (s.spl - 1)) s.dl s s.pushDl := fun y => by
  rw [pushDl_eq, memRead_memWrite]
  rfl

theorem popDl_regs (s : State) : s.popDl.regs = s.regs := by rw [popDl_eq]

theorem popDl_mem (s : State) : s.popDl.mem = s.mem := by rw [popDl_eq]

/-- Settles O45. -/
theorem callPushesTheReturnOffset : Obligations.CallPushesTheReturnOffset := by
  refine ⟨fun a s => ⟨jumpTo a s.ldPcl.pushDl, rfl, ?_, memStored_pushDl s.ldPcl⟩, fun _ => rfl⟩
  apply settled_congr <;> simp [jumpTo, pushDl_eq]

/-- Settles O46. -/
theorem retPopsPcl : Obligations.RetPopsPcl := by
  refine ⟨fun s => ⟨s.popDl.pclLoad, rfl, ?_, fun x => ?_⟩, codeNa_of 0x02 .ret rfl (by decide)⟩
  · apply settled_congr <;> simp [popDl_eq]
  · exact memRead_congr (popDl_mem s) x

/-- POP writes the Word the stack pointer names, whatever the operand's form (R238). -/
theorem popOperand_eq (o : Operand) (s : State) :
    popOperand o s = o.writeBack s (s.memRead (ea s.ss s.spl)) (o.stepBefore s).popDl := by
  simp [popOperand, popDl_eq]

/-- POP in its four forms (R238): the operand's place is found before the pop, and the popped Word is the cell
SPL named. -/
theorem popRg_runs (m : Mode) (r : RegNum) (s : State) :
    Runs (.popRg m r) s fun t =>
      t.settled = { s with spl := s.spl + 1, regs := t.regs : State }.settled ∧
        OperandReg (.rg m r) (s.memRead (ea s.ss s.spl)) s t ∧
        OperandCell (.rg m r) (s.memRead (ea s.ss s.spl)) s t := by
  refine ⟨popOperand (.rg m r) s, rfl, ?_, ?_, ?_⟩
  · apply settled_congr <;> simp [popOperand, popDl_eq]
  · intro q
    rw [popOperand_eq]
    exact writeBack_reg _ _ _ _ (fun q => reg_congr (popDl_regs _) q) q
  · intro x
    rw [popOperand_eq, writeBack_memRead, memRead_congr (popDl_mem _), stepBefore_memRead]

/-- Settles O30. -/
theorem popLoadsTheOperandFromTheStack : Obligations.PopLoadsTheOperandFromTheStack := by
  refine ⟨popRg_runs, fun w hw => ?_⟩
  show Except.ok (if w.getLsbD 7 then Instr.popRg _ _ else Instr.pushRg _ _) = _
  rw [if_pos hw]

/-- Settles O31: SPL comes back because the increment of POP undoes the decrement of PUSH modulo 256 (R26). -/
theorem popUndoesPush : Obligations.PopUndoesPush := by
  intro r s
  refine ⟨_, rfl, fun u hss hspl hcell => ?_⟩
  have hpushed : u.memRead (ea u.ss u.spl) = s.reg r := by
    rw [hss, hspl, hcell]
    exact (memStored_pushDl (s.ldReg r) _).trans (if_pos rfl)
  obtain ⟨v, hexec, hsettled, hreg, -⟩ := popRg_runs .direct r u
  refine ⟨v, hexec, ?_, ?_⟩
  · rw [hreg r, hpushed]
    exact if_pos rfl
  · have hv : v.spl = u.spl + 1 := congrArg State.spl hsettled
    have hu : u.spl = s.spl - 1 := hspl
    rw [hv, hu, BitVec.sub_add_cancel]

end Sys2Proof.Proofs
end

section
/-! PROOFS. The 86 arms of `exec` come in a few handler shapes. Each shape is named here as a function on states,
tied to `exec` by `exec_eq`, and the frame statements of 10_state.md R31 and R48 are proved once per shape. -/

namespace Sys2Proof.Proofs

open Sys2Proof.Machine

/-! ## The shapes of the handlers -/

/-- The shape of a handler, with the parameters in which its uses differ. A parameter that looks at the state is a
function of its flags, and of ACC where it computes a result. -/
inductive Handler where
  | accOp (op : AluOp) (f : Word → Word → Bool → Word × Bool) (o : Operand)
  | accCompare (op : AluOp) (f : Word → Word → Bool → Word × Bool) (o : Operand)
  | operandOp (op : AluOp) (h : op.twoOperand = false) (f : Word → Word × Bool) (o : Operand)
  | accAdjust (op : AluOp) (h : op.twoOperand = false) (f : (Flag → Bool) → Word → Word × Bool)
  | storeAcc (o : Operand)
  | loadAcc (o : Operand)
  | pushOperand (o : Operand)
  | popOperand (o : Operand)
  | writePortOperand (o : Operand)
  | exchangeAcc (o : Operand)
  | jump (cond : (Flag → Bool) → Bool) (t : Word)
  | djrnz (r : RegNum) (t : Word)
  | call (t : Word)
  | ret
  | int (n : Word)
  | iret
  | idle
  | setI (v : Bool)
  | rotate (f : (Flag → Bool) → Word → Word × Bool)
  | halt
  | ldf
  | stf
  | writeCellBit (b : BitIdx) (v : Bool) (a : Word)
  | skipOnCell (b : BitIdx) (v : Bool) (a : Word)
  | writePortBit (b : BitIdx) (v : Bool) (p : Word)
  | skipOnPort (b : BitIdx) (v : Bool) (p : Word)
  | inPort (p : Word)
  | outPort (p : Word)

/-- The state a handler leaves: for the flag updates the one `accOp_eq`, `accCompare_eq`, `operandOp_eq` and
`accAdjust_eq` give, else the model's own function of the shape. -/
def Handler.run (k : Handler) (s : State) : State :=
  match k with
  | .accOp op f o =>
    let s1 := o.load s
    let x := f s1.acc s1.dl (s.flag .c)
    ({ (s1.snapPre s1.acc).snapArg s1.dl with acc := x.1 } : State).flagsUpdated op x.1 x.2 (s.flag .c)
  | .accCompare op f o =>
    let s1 := o.load s
    let x := f s1.acc s1.dl (s.flag .c)
    ((s1.snapPre s1.acc).snapArg s1.dl).flagsUpdated op x.1 x.2 (s.flag .c)
  | .operandOp op _ f o =>
    let x := f (o.value s)
    (o.writeBack s x.1 ((o.fetchForUpdate s).snapPre (o.value s))).flagsUpdated op x.1 x.2 (s.flag .c)
  | .accAdjust op _ f =>
    let x := f s.flag s.acc
    ({ s.snapPre s.acc with acc := x.1 } : State).flagsUpdated op x.1 x.2 (s.flag .c)
  | .storeAcc o => Machine.storeAcc o s
  | .loadAcc o => Machine.loadAcc o s
  | .pushOperand o => Machine.pushOperand o s
  | .popOperand o => Machine.popOperand o s
  | .writePortOperand o => Machine.writePortOperand o s
  | .exchangeAcc o => Machine.exchangeAcc o s
  | .jump cond t => jumpIf (cond s.flag) t s
  | .djrnz r t => jumpIf (decide ((decrementRegister r s).reg r ≠ 0)) t (decrementRegister r s)
  | .call t => jumpTo t s.ldPcl.pushDl
  | .ret => s.popDl.pclLoad
  | .int n => s.softwareInterrupt n
  | .iret => s.interruptReturn
  | .idle => s
  | .setI v => s.setFlag .i v
  | .rotate f => s.rotateAcc (f s.flag s.acc)
  | .halt => { s with run := false }
  | .ldf => { s with acc := s.flags }
  | .stf => { s with flags := s.acc }
  | .writeCellBit b v a => Machine.writeCellBit b v a s
  | .skipOnCell b v a => Machine.skipOnCell b v a s
  | .writePortBit b v p => Machine.writePortBit b v p s
  | .skipOnPort b v p => Machine.skipOnPort b v p s
  | .inPort p => (s.eaPort p).ldPort.dlToAcc
  | .outPort p => (s.eaPort p).accToDl.stPort

/-- The handler of each instruction. -/
def handlerOf : Instr → Handler
  | .movRg m r => .storeAcc (.rg m r)
  | .movMd a => .storeAcc (.md a)
  | .pushRg m r => .pushOperand (.rg m r)
  | .pushMd a => .pushOperand (.md a)
  | .pushIm k => .pushOperand (.im k)
  | .popRg m r => .popOperand (.rg m r)
  | .outxRg m r => .writePortOperand (.rg m r)
  | .outxMd a => .writePortOperand (.md a)
  | .outxIm k => .writePortOperand (.im k)
  | .rdRg m r => .loadAcc (.rg m r)
  | .rdMd a => .loadAcc (.md a)
  | .rdIm k => .loadAcc (.im k)
  | .xchRg m r => .exchangeAcc (.rg m r)
  | .addRg m r => .accOp .add (fun x v _ => add8 x v) (.rg m r)
  | .addMd a => .accOp .add (fun x v _ => add8 x v) (.md a)
  | .addIm k => .accOp .add (fun x v _ => add8 x v) (.im k)
  | .subRg m r => .accOp .sub (fun x v _ => sub8 x v) (.rg m r)
  | .subMd a => .accOp .sub (fun x v _ => sub8 x v) (.md a)
  | .subIm k => .accOp .sub (fun x v _ => sub8 x v) (.im k)
  | .mulRg m r => .accOp .mul (fun x v _ => mul8 x v) (.rg m r)
  | .mulMd a => .accOp .mul (fun x v _ => mul8 x v) (.md a)
  | .mulIm k => .accOp .mul (fun x v _ => mul8 x v) (.im k)
  | .divRg m r => .accOp .div (fun x v _ => div8 x v) (.rg m r)
  | .divMd a => .accOp .div (fun x v _ => div8 x v) (.md a)
  | .divIm k => .accOp .div (fun x v _ => div8 x v) (.im k)
  | .andRg m r => .accOp .and (fun x v _ => and8 x v) (.rg m r)
  | .andMd a => .accOp .and (fun x v _ => and8 x v) (.md a)
  | .andIm k => .accOp .and (fun x v _ => and8 x v) (.im k)
  | .orRg m r => .accOp .or (fun x v _ => or8 x v) (.rg m r)
  | .orMd a => .accOp .or (fun x v _ => or8 x v) (.md a)
  | .orIm k => .accOp .or (fun x v _ => or8 x v) (.im k)
  | .xorRg m r => .accOp .xor (fun x v _ => xor8 x v) (.rg m r)
  | .xorMd a => .accOp .xor (fun x v _ => xor8 x v) (.md a)
  | .xorIm k => .accOp .xor (fun x v _ => xor8 x v) (.im k)
  | .adcRg m r => .accOp .adc adc8 (.rg m r)
  | .adcMd a => .accOp .adc adc8 (.md a)
  | .adcIm k => .accOp .adc adc8 (.im k)
  | .subbRg m r => .accOp .subb sbb8 (.rg m r)
  | .cmpRg m r => .accCompare .cmp (fun x v _ => sub8 x v) (.rg m r)
  | .cmpMd a => .accCompare .cmp (fun x v _ => sub8 x v) (.md a)
  | .cmpIm k => .accCompare .cmp (fun x v _ => sub8 x v) (.im k)
  | .notRg m r => .operandOp .not rfl not8 (.rg m r)
  | .notMd a => .operandOp .not rfl not8 (.md a)
  | .incRg m r => .operandOp .inc rfl inc8 (.rg m r)
  | .incMd a => .operandOp .inc rfl inc8 (.md a)
  | .decRg m r => .operandOp .dec rfl dec8 (.rg m r)
  | .decMd a => .operandOp .dec rfl dec8 (.md a)
  | .daa => .accAdjust .daa rfl fun flag x => add8 x (bcdAdjustment x (flag .a) (flag .c))
  | .dsa => .accAdjust .dsa rfl fun flag x => sub8 x (bcdAdjustment x (flag .a) (flag .c))
  | .jmp t => .jump (fun _ => true) t
  | .jz t => .jump (fun flag => flag .z) t
  | .jnz t => .jump (fun flag => !flag .z) t
  | .jc t => .jump (fun flag => flag .c) t
  | .jnc t => .jump (fun flag => !flag .c) t
  | .jn t => .jump (fun flag => flag .n) t
  | .jnn t => .jump (fun flag => !flag .n) t
  | .jo t => .jump (fun flag => flag .o) t
  | .jno t => .jump (fun flag => !flag .o) t
  | .djrnz r t => .djrnz r t
  | .call t => .call t
  | .ret => .ret
  | .int n => .int n
  | .iret => .iret
  | .nop => .idle
  | .inp => .idle
  | .outp => .idle
  | .ei => .setI true
  | .di => .setI false
  | .rl => .rotate fun _ x => rol x
  | .rr => .rotate fun _ x => ror x
  | .rlc => .rotate fun flag x => rolc (flag .c) x
  | .rrc => .rotate fun flag x => rorc (flag .c) x
  | .hlt => .halt
  | .implicitHalt => .halt
  | .ldf => .ldf
  | .stf => .stf
  | .clrb b a => .writeCellBit b false a
  | .setb b a => .writeCellBit b true a
  | .skbc b a => .skipOnCell b false a
  | .skbs b a => .skipOnCell b true a
  | .pclrb b p => .writePortBit b false p
  | .psetb b p => .writePortBit b true p
  | .pskbc b p => .skipOnPort b false p
  | .pskbs b p => .skipOnPort b true p
  | .inPort p => .inPort p
  | .outPort p => .outPort p

/-- Every instruction answers a next state, the one its handler's shape leaves. -/
theorem exec_eq (i : Instr) (s : State) : exec i s = .next ((handlerOf i).run s) := by
  cases i
  case notRg | incRg | decRg => exact operandOp_eq rfl _ _ s
  all_goals rfl

/-! ## What the shared parts of a handler leave unchanged -/

/-- The end of a flag update (R190) writes the flags, DR and the snapshots. -/
theorem flagsUpdated_eq (op : AluOp) (res : Word) (rep cin : Bool) (s : State) :
    s.flagsUpdated op res rep cin =
      { s with
        arg := s.argFor op, flags := flagsAfter op s.pre (s.argFor op) res rep cin s.flags, preValid := false
        argValid := false, dr := flagsAfter op s.pre (s.argFor op) res rep cin s.flags } := rfl

/-- A conditional jump writes PCL, and DL as scratch. -/
theorem jumpIf_eq (cond : Bool) (t : Word) (s : State) :
    jumpIf cond t s = { s with pcl := if cond then t else s.pcl, dl := if cond then t else s.dl } := by
  cases cond <;> rfl

/-- A conditional skip writes PCL. -/
theorem skipIf_eq (cond : Bool) (s : State) :
    skipIf cond s = { s with pcl := if cond then s.pcl + 1 + 1 else s.pcl } := by
  cases cond <;> rfl

/-- DJRNZ's register step writes the register, and DL as scratch. -/
theorem decrementRegister_eq (r : RegNum) (s : State) :
    decrementRegister r s = ({ s with dl := (dec8 (s.reg r)).1 } : State).setReg r (dec8 (s.reg r)).1 := rfl

/-- A bit write stores in its cell, with AL and DL as scratch. -/
theorem writeCellBit_eq (b : BitIdx) (v : Bool) (a : Word) (s : State) :
    writeCellBit b v a s =
      ({ s with al := ea s.ds a, dl := setBit b.toNat v (s.memRead (ea s.ds a)) } : State).memWrite (ea s.ds a)
        (setBit b.toNat v (s.memRead (ea s.ds a))) := rfl

end Sys2Proof.Proofs
end

section
/-! PROOFS. Which instructions write which general register, special register and flag (10_state.md R31, R48). -/

namespace Sys2Proof.Proofs

open Sys2Proof.Machine

/-! ## General registers -/

/-- The register an operand names. -/
def operandReg : Operand → Option RegNum
  | .rg _ r => some r
  | .md _ => none
  | .im _ => none

/-- The register a handler names. -/
def Handler.namedReg : Handler → Option RegNum
  | .accOp _ _ o => operandReg o
  | .accCompare _ _ o => operandReg o
  | .operandOp _ _ _ o => operandReg o
  | .storeAcc o => operandReg o
  | .loadAcc o => operandReg o
  | .pushOperand o => operandReg o
  | .popOperand o => operandReg o
  | .writePortOperand o => operandReg o
  | .exchangeAcc o => operandReg o
  | .djrnz r _ => some r
  | _ => none

theorem namedReg_handlerOf (i : Instr) : (handlerOf i).namedReg = i.namedReg := by
  cases i <;> rfl

/-- Finding an operand steps no register but the one it names (R203, R204). -/
theorem step_reg_of_ne {o : Operand} {q : RegNum} (h : operandReg o ≠ some q) (s : State) :
    (o.stepAfter (o.stepBefore s)).reg q = s.reg q := by
  cases o with
  | rg m r => exact rg_step_of_ne m r s fun hq => h (congrArg some hq.symm)
  | md a => rfl
  | im k => rfl

/-- The register an operand lies in is the one it names (R201). -/
theorem openLoc_ne_reg {o : Operand} {q : RegNum} (h : operandReg o ≠ some q) (s : State) :
    o.openLoc s ≠ .reg q := by
  rcases o with ⟨_ | _ | _ | _, r⟩ | a | k
  case rg.direct => exact fun hl => h (congrArg some (Loc.reg.inj hl))
  all_goals exact fun hl => nomatch hl

/-- With nothing but the operand's own step, every register it does not name is kept. -/
theorem reg_of_stepped {o : Operand} {q : RegNum} (h : operandReg o ≠ some q) {s t : State}
    (ht : t.regs = (o.stepAfter (o.stepBefore s)).regs) : t.reg q = s.reg q :=
  (reg_congr ht q).trans (step_reg_of_ne h s)

/-- Writing an operand back keeps every register it does not name. -/
theorem writeBack_reg_of_ne {o : Operand} {q : RegNum} (h : operandReg o ≠ some q) {s t : State}
    (ht : t.regs = (o.stepBefore s).regs) (v : Word) : (o.writeBack s v t).reg q = s.reg q := by
  rw [writeBack_reg _ _ _ _ (reg_congr ht), if_neg (openLoc_ne_reg h s), step_reg_of_ne h]

/-- No handler writes a general register it does not name. -/
theorem run_reg_of_ne {k : Handler} {q : RegNum} (h : k.namedReg ≠ some q) (s : State) :
    (k.run s).reg q = s.reg q := by
  cases k with
  | accOp op f o => exact reg_of_stepped h (load_regs o s)
  | accCompare op f o => exact reg_of_stepped h (load_regs o s)
  | operandOp op hop f o =>
    exact (reg_congr rfl q).trans
      (writeBack_reg_of_ne h ((snapPre_regs _ _).trans (fetchForUpdate_regs o s)) (f (o.value s)).1)
  | storeAcc o => exact writeBack_reg_of_ne (t := o.stepBefore s) h rfl s.acc
  | loadAcc o => exact reg_of_stepped h (by simp [Handler.run, loadAcc])
  | pushOperand o => exact reg_of_stepped h (by simp [Handler.run, pushOperand, pushDl_eq])
  | popOperand o => exact writeBack_reg_of_ne h (popDl_regs _) _
  | writePortOperand o => exact reg_of_stepped h (by simp [Handler.run, writePortOperand])
  | exchangeAcc o => exact writeBack_reg_of_ne h (fetchForUpdate_regs o s) _
  | djrnz r t =>
    have hq : q ≠ r := fun hq => h (congrArg some hq.symm)
    simp only [Handler.run, jumpIf_eq, decrementRegister_eq]
    exact reg_setReg_ne _ _ hq
  | jump cond t => exact reg_congr (by simp [Handler.run, jumpIf_eq]) q
  | int n => exact reg_congr (by simp [Handler.run, State.softwareInterrupt, vector_eq, saveForEntry_eq]) q
  | iret => exact reg_congr (by simp [Handler.run, interruptReturn_eq]) q
  | skipOnCell b v a => exact reg_congr (by simp [Handler.run, skipOnCell, skipIf_eq, readCell]) q
  | skipOnPort b v p => exact reg_congr (by simp [Handler.run, skipOnPort, skipIf_eq]) q
  | call t => exact reg_congr (by simp [Handler.run, jumpTo, pushDl_eq]) q
  | ret => exact reg_congr (by simp [Handler.run, popDl_eq]) q
  | writeCellBit b v a => exact reg_congr (by simp [Handler.run, writeCellBit_eq]) q
  | _ => rfl

/-- Settles O21: through the shapes, where the only writes of a register are the operand's and DJRNZ's own. -/
theorem onlyTheNamedRegisterIsWritten : Obligations.OnlyTheNamedRegisterIsWritten := fun i s _ =>
  ⟨_, exec_eq i s, fun h => run_reg_of_ne (namedReg_handlerOf i ▸ h) s⟩

/-! ## Special registers -/

/-- The special registers, grouped as R48 lists their writers. -/
inductive Place where
  | acc
  | pcl
  | spl
  | cs
  /-- DR and the snapshots PRE and ARG. -/
  | shadow
  /-- CR0 and CR1. -/
  | latch
  | run
  | device

/-- The mnemonics that may write a place. -/
def Place.writers : Place → List Mnemonic
  | .acc => accWriters
  | .pcl => pclWriters
  | .spl => splWriters
  | .cs => csWriters
  | .shadow => flagUpdaters
  | .latch => [.int]
  | .run => [.hlt, .implicitHalt]
  | .device => deviceCallers

/-- The places a handler may write. -/
def Handler.places : Handler → List Place
  | .accOp _ _ _ => [.acc, .shadow]
  | .accCompare _ _ _ => [.shadow]
  | .operandOp _ _ _ _ => [.shadow]
  | .accAdjust _ _ _ => [.acc, .shadow]
  | .storeAcc _ => []
  | .loadAcc _ => [.acc]
  | .pushOperand _ => [.spl]
  | .popOperand _ => [.spl]
  | .writePortOperand _ => [.device]
  | .exchangeAcc _ => [.acc]
  | .jump _ _ => [.pcl]
  | .djrnz _ _ => [.pcl]
  | .call _ => [.spl, .pcl]
  | .ret => [.spl, .pcl]
  | .int _ => [.spl, .pcl, .cs, .latch]
  | .iret => [.spl, .pcl, .cs, .device]
  | .idle => []
  | .setI _ => []
  | .rotate _ => [.acc]
  | .halt => [.run]
  | .ldf => [.acc]
  | .stf => []
  | .writeCellBit _ _ _ => []
  | .skipOnCell _ _ _ => [.pcl]
  | .writePortBit _ _ _ => [.device]
  | .skipOnPort _ _ _ => [.pcl, .device]
  | .inPort _ => [.acc, .device]
  | .outPort _ => [.device]

/-- The lists of R48 hold the instructions whose handlers write the place. -/
theorem mem_writers_of_mem_places (i : Instr) : ∀ p ∈ (handlerOf i).places, i.mnemonic ∈ p.writers := by
  cases i <;>
    simp [handlerOf, Handler.places, Instr.mnemonic, Place.writers, accWriters, pclWriters, splWriters, csWriters,
      flagUpdaters, deviceCallers]

/-- `t` has every special register of `s` but those of the places `w`; DS, SS, UNREC and the host's requests always. -/
structure KeptOutside (w : List Place) (s t : State) : Prop where
  acc : .acc ∉ w → t.acc = s.acc
  pcl : .pcl ∉ w → t.pcl = s.pcl
  spl : .spl ∉ w → t.spl = s.spl
  cs : .cs ∉ w → t.cs = s.cs
  shadow : .shadow ∉ w → t.dr = s.dr ∧ t.pre = s.pre ∧ t.arg = s.arg
  latch : .latch ∉ w → t.cr0 = s.cr0 ∧ t.cr1 = s.cr1
  run : .run ∉ w → t.run = s.run
  device : .device ∉ w → t.dev = s.dev
  always : t.ds = s.ds ∧ t.ss = s.ss ∧ t.unrec = s.unrec ∧ t.host = s.host

/-- Every handler keeps the special registers outside its places. -/
theorem run_keptOutside (k : Handler) (s : State) : KeptOutside k.places s (k.run s) := by
  cases k
  case accOp | accCompare | operandOp | accAdjust =>
    constructor <;> simp [Handler.run, Handler.places, flagsUpdated_eq]
  case storeAcc => constructor <;> simp [Handler.run, storeAcc, Operand.store]
  case loadAcc => constructor <;> simp [Handler.run, Handler.places, loadAcc]
  case pushOperand => constructor <;> simp [Handler.run, Handler.places, pushOperand, pushDl_eq]
  case popOperand => constructor <;> simp [Handler.run, Handler.places, popOperand_eq, popDl_eq]
  case writePortOperand => constructor <;> simp [Handler.run, Handler.places, writePortOperand]
  case exchangeAcc => constructor <;> simp [Handler.run, Handler.places, exchangeAcc]
  case jump => constructor <;> simp [Handler.run, Handler.places, jumpIf_eq]
  case djrnz => constructor <;> simp [Handler.run, Handler.places, jumpIf_eq, decrementRegister_eq]
  case call => constructor <;> simp [Handler.run, Handler.places, jumpTo, pushDl_eq]
  case ret => constructor <;> simp [Handler.run, Handler.places, popDl_eq]
  case int =>
    constructor <;> simp [Handler.run, Handler.places, State.softwareInterrupt, vector_eq, saveForEntry_eq]
  case iret => constructor <;> simp [Handler.run, Handler.places, interruptReturn_eq]
  case idle | setI | halt | ldf | stf => constructor <;> simp [Handler.run, Handler.places]
  case rotate => constructor <;> simp [Handler.run, Handler.places, rotateAcc_eq]
  case writeCellBit => constructor <;> simp [Handler.run, writeCellBit_eq]
  case skipOnCell => constructor <;> simp [Handler.run, Handler.places, skipOnCell, readCell, skipIf_eq]
  case skipOnPort => constructor <;> simp [Handler.run, Handler.places, skipOnPort, skipIf_eq]
  case writePortBit => constructor <;> simp [Handler.run, Handler.places, writePortBit]
  case inPort | outPort => constructor <;> simp [Handler.run, Handler.places]

/-- Settles O22: each handler keeps what lies outside its places, and R48 lists the writers of each. -/
theorem onlyTheListedInstructionsWriteARegister : Obligations.OnlyTheListedInstructionsWriteARegister := by
  intro i s
  have hk := run_keptOutside (handlerOf i) s
  have hout {p : Place} (h : i.mnemonic ∉ p.writers) : p ∉ (handlerOf i).places :=
    fun hp => h (mem_writers_of_mem_places i p hp)
  refine ⟨_, exec_eq i s, fun h => hk.acc (hout h), fun h => hk.pcl (hout h), fun h => hk.spl (hout h),
    fun h => hk.cs (hout h), fun h => hk.shadow (hout h), fun h => hk.latch (hout ?_), fun h => hk.run (hout ?_),
    fun h => hk.device (hout h), hk.always⟩
  · simpa [Place.writers] using h
  · simpa [Place.writers] using h

/-! ## Flags -/

/-- The flags a category's mask writes (R187, R188, R189). -/
def categoryFlags : Category → List Flag
  | .arithmetic => [.z, .n, .o, .a, .c]
  | .logical => [.z, .n, .o, .a, .c]
  | .incAdj => [.z, .n, .a, .c]

/-- The flags a handler may write. -/
def Handler.flags : Handler → List Flag
  | .accOp op _ _ => categoryFlags op.category
  | .accCompare op _ _ => categoryFlags op.category
  | .operandOp op _ _ _ => categoryFlags op.category
  | .accAdjust op _ _ => categoryFlags op.category
  | .int _ => [.i]
  | .iret => [.z, .n, .o, .a, .c, .i]
  | .setI _ => [.i]
  | .rotate _ => [.c]
  | .stf => [.z, .n, .o, .a, .c, .i, .u6, .u7]
  | _ => []

/-- A flag update keeps the flags outside the mask of its category. -/
theorem flagOf_flagsAfter_of_notMem {op : AluOp} {f : Flag} (h : f ∉ categoryFlags op.category) (pre arg res : Word)
    (rep cin : Bool) (w : Word) : flagOf f (flagsAfter op pre arg res rep cin w) = flagOf f w := by
  unfold flagsAfter
  generalize op.category = c at h
  cases c <;> simp_all [categoryFlags, applyMask]

/-- IRET takes bits 5 to 0 of FLAGS from the status word and keeps U6 and U7 (R283, D37). -/
theorem flagOf_restoreFlags (status w : Word) {f : Flag} (h : f = .u6 ∨ f = .u7) :
    flagOf f (restoreFlags status w) = flagOf f w := by
  rcases h with rfl | rfl <;> simp [flagOf, Flag.pos, restoreFlags]

/-- The lists of R31 hold the instructions whose handlers write the flag. -/
theorem mem_flagWriters_of_mem_flags (i : Instr) : ∀ f ∈ (handlerOf i).flags, i.mnemonic ∈ flagWriters f := by
  cases i <;> simp [handlerOf, Handler.flags, categoryFlags, AluOp.category, Instr.mnemonic, flagWriters]

/-- Every handler keeps the flags outside those it may write. -/
theorem run_flag_of_notMem {k : Handler} {f : Flag} (h : f ∉ k.flags) (s : State) : (k.run s).flag f = s.flag f := by
  cases k with
  | accOp op g o => exact (flagOf_flagsAfter_of_notMem h _ _ _ _ _ _).trans (flag_congr (load_flags o s) f)
  | accCompare op g o => exact (flagOf_flagsAfter_of_notMem h _ _ _ _ _ _).trans (flag_congr (load_flags o s) f)
  | operandOp op hop g o =>
    exact (flagOf_flagsAfter_of_notMem h _ _ _ _ _ _).trans (flag_congr (by simp) f)
  | accAdjust op hop g => exact flagOf_flagsAfter_of_notMem h _ _ _ _ _ _
  | storeAcc o => exact flag_congr (by simp [Handler.run, storeAcc, Operand.store]) f
  | loadAcc o => exact flag_congr (by simp [Handler.run, loadAcc]) f
  | pushOperand o => exact flag_congr (by simp [Handler.run, pushOperand, pushDl_eq]) f
  | popOperand o => exact flag_congr (by simp [Handler.run, popOperand_eq, popDl_eq]) f
  | writePortOperand o => exact flag_congr (by simp [Handler.run, writePortOperand]) f
  | exchangeAcc o => exact flag_congr (by simp [Handler.run, exchangeAcc]) f
  | jump cond t => exact flag_congr (by simp [Handler.run, jumpIf_eq]) f
  | djrnz r t => exact flag_congr (by simp [Handler.run, jumpIf_eq, decrementRegister_eq]) f
  | int n =>
    have hf : f ≠ .i := by simpa [Handler.flags] using h
    have hentry : (s.softwareInterrupt n).flag f = s.saveForEntry.flag f := by
      rw [State.softwareInterrupt, vector_eq]
      exact (flagOf_withFlag _ _ _ _).trans (if_neg hf)
    exact hentry.trans (flag_congr (by simp [saveForEntry_eq]) f)
  | iret =>
    have hf : f = .u6 ∨ f = .u7 := by cases f <;> simp_all [Handler.flags]
    rw [Handler.run, interruptReturn_eq]
    exact flagOf_restoreFlags _ _ hf
  | setI v => exact (flag_setFlag _ _ _ _).trans (if_neg (by simpa [Handler.flags] using h))
  | rotate g => exact (flagOf_withFlag _ _ _ _).trans (if_neg (by simpa [Handler.flags] using h))
  | stf => exact absurd (by cases f <;> simp [Handler.flags]) h
  | skipOnCell b v a => exact flag_congr (by simp [Handler.run, skipOnCell, skipIf_eq, readCell]) f
  | skipOnPort b v p => exact flag_congr (by simp [Handler.run, skipOnPort, skipIf_eq]) f
  | call t => exact flag_congr (by simp [Handler.run, jumpTo, pushDl_eq]) f
  | ret => exact flag_congr (by simp [Handler.run, popDl_eq]) f
  | writeCellBit b v a => exact flag_congr (by simp [Handler.run, writeCellBit_eq]) f
  | _ => rfl

/-- Settles O23: each handler keeps the flags it does not write, and the lists of R31 hold the writers of each flag. -/
theorem onlyTheListedInstructionsWriteAFlag : Obligations.OnlyTheListedInstructionsWriteAFlag := fun i s f =>
  ⟨_, exec_eq i s, fun h => run_flag_of_notMem (fun hf => h (mem_flagWriters_of_mem_flags i f hf)) s⟩

end Sys2Proof.Proofs
end

section
/-! PROOFS. What a program cannot observe does not reach what it can (10_state.md R22, R36, R38, R39): every part of a step
carries states with one `programView` to states with one `programView`. -/

namespace Sys2Proof.Proofs

open Sys2Proof.Machine

/-- What a program observes of the result depends only on what it observes of the start. -/
def ViewLocal (f : State → State) : Prop := ∀ s, (f s).programView = (f s.programView).programView

theorem ViewLocal.comp {f g : State → State} (hg : ViewLocal g) (hf : ViewLocal f) : ViewLocal (g ∘ f) := fun s => by
  simp only [Function.comp]
  rw [hg (f s), hf s, ← hg (f s.programView)]

/-- A view-local change carries states with one view to states with one view. -/
theorem ViewLocal.congr {f : State → State} (hf : ViewLocal f) {s t : State} (h : s.programView = t.programView) :
    (f s).programView = (f t).programView := by
  rw [hf s, h, ← hf t]

/-! ## Operands, flags and entries -/

@[simp] theorem programView_flagReader (s : State) : s.programView.flag = s.flag := rfl

theorem viewLocal_stepBefore (o : Operand) : ViewLocal o.stepBefore := fun _ => by
  rcases o with ⟨_ | _ | _ | _, _⟩ | _ | _ <;> rfl

theorem viewLocal_stepAfter (o : Operand) : ViewLocal o.stepAfter := fun _ => by
  rcases o with ⟨_ | _ | _ | _, _⟩ | _ | _ <;> rfl

theorem viewLocal_locWrite (l : Loc) (v : Word) : ViewLocal (l.write v) := fun _ => by
  cases l <;> rfl

/-- A write-back goes to a place that is found from the view alone. -/
theorem writeBack_view (o : Operand) (s : State) (v : Word) {t t' : State} (h : t.programView = t'.programView) :
    (o.writeBack s v t).programView = (o.writeBack s.programView v t').programView := by
  rw [Operand.writeBack, Operand.writeBack, programView_openLoc]
  exact (viewLocal_stepAfter o).congr ((viewLocal_locWrite _ v).congr h)

/-- Reading an operand for update changes nothing a program observes but the pointer step. -/
theorem viewLocal_fetchForUpdate (o : Operand) : ViewLocal o.fetchForUpdate := fun s => by
  have hread (l : Loc) (t : State) : (l.read t).programView = t.programView := by cases l <;> rfl
  rw [Operand.fetchForUpdate, Operand.fetchForUpdate, hread, hread]
  exact viewLocal_stepBefore o s

/-- Of a flag update a program observes the flags only; they come from the snapshots taken just before (R190). -/
theorem flagsUpdated_view (op : AluOp) (res : Word) (rep cin : Bool) (s : State) :
    (s.flagsUpdated op res rep cin).programView =
      { s.programView with flags := flagsAfter op s.pre (s.argFor op) res rep cin s.flags } := rfl

theorem viewLocal_popDl : ViewLocal State.popDl := fun _ => rfl

theorem viewLocal_saveForEntry : ViewLocal State.saveForEntry := fun s => by
  apply programView_congr <;> simp [saveForEntry_eq]

theorem viewLocal_vector (id : Nat) : ViewLocal (State.vector id) := fun s => by
  apply programView_congr <;> simp [vector_eq]

/-- The vector of an acceptance is the device side's answer, which the pushes before it do not change (R341). -/
theorem viewLocal_accept : ViewLocal State.accept := fun s => by
  have hack : ViewLocal State.irqAck := fun _ => rfl
  have hid : s.programView.saveForEntry.dev = s.saveForEntry.dev := by simp [saveForEntry_eq]
  rw [State.accept, State.accept, hid]
  exact (viewLocal_vector _).congr ((hack.comp viewLocal_saveForEntry) s)

/-! ## Handlers -/

/-- The in-place operation: it takes no second snapshot, so no old ARG reaches the flags (R180). -/
theorem viewLocal_operandOp {op : AluOp} (hop : op.twoOperand = false) (f : Word → Word × Bool) (o : Operand) :
    ViewLocal (Handler.operandOp op hop f o).run := fun s => by
  have hsnap : ViewLocal (State.snapPre (o.value s)) := fun _ => rfl
  have hback := writeBack_view o s (f (o.value s)).1 (hsnap.congr (viewLocal_fetchForUpdate o s))
  simp only [Handler.run, flagsUpdated_view, programView_value, hback]
  simp [State.argFor, hop]

theorem viewLocal_exchangeAcc (o : Operand) : ViewLocal (exchangeAcc o) := fun s => by
  have hacc : ViewLocal fun u => { u with acc := o.value s } := fun _ => rfl
  simp only [exchangeAcc, fetchForUpdate_acc, fetchForUpdate_dl, programView_value, programView_acc]
  exact hacc.congr (writeBack_view o s s.acc (viewLocal_fetchForUpdate o s))

/-- Every handler is view-local. -/
theorem viewLocal_run (k : Handler) : ViewLocal k.run := fun s => by
  cases k with
  | accOp op f o =>
    apply programView_congr <;> simp [Handler.run, flagsUpdated_eq, State.argFor]
  | accCompare op f o =>
    apply programView_congr <;> simp [Handler.run, flagsUpdated_eq, State.argFor]
  | operandOp op hop f o => exact viewLocal_operandOp hop f o s
  | accAdjust op hop f =>
    apply programView_congr <;> simp [Handler.run, flagsUpdated_eq, State.argFor, hop]
  | storeAcc o => exact writeBack_view o s s.acc (viewLocal_stepBefore o s)
  | loadAcc o => apply programView_congr <;> simp [Handler.run, loadAcc]
  | pushOperand o => apply programView_congr <;> simp [Handler.run, pushOperand, pushDl_eq]
  | popOperand o =>
    simp only [Handler.run, popOperand_eq]
    exact writeBack_view o s _ (viewLocal_popDl.congr (viewLocal_stepBefore o s))
  | writePortOperand o => apply programView_congr <;> simp [Handler.run, writePortOperand, State.alPort]
  | exchangeAcc o => exact viewLocal_exchangeAcc o s
  | jump cond t => apply programView_congr <;> simp [Handler.run, jumpIf_eq]
  | djrnz r t => apply programView_congr <;> simp [Handler.run, jumpIf_eq, decrementRegister_eq]
  | call t => apply programView_congr <;> simp [Handler.run, jumpTo, pushDl_eq]
  | ret => apply programView_congr <;> simp [Handler.run, popDl_eq]
  | int n => exact ((viewLocal_vector _).comp viewLocal_saveForEntry) s
  | iret => apply programView_congr <;> simp [Handler.run, interruptReturn_eq]
  | writeCellBit b v a => apply programView_congr <;> simp [Handler.run, writeCellBit_eq]
  | skipOnCell b v a => apply programView_congr <;> simp [Handler.run, skipOnCell, skipIf_eq, readCell, State.memRead]
  | skipOnPort b v p =>
    apply programView_congr <;> simp [Handler.run, skipOnPort, skipIf_eq, State.portBit, State.alPort]
  | _ => rfl

/-! ## The tick and the host's requests -/

theorem viewLocal_interruptCheck : ViewLocal State.interruptCheck := fun s => by
  have hpending : ViewLocal State.irqPending := fun _ => rfl
  simp only [State.interruptCheck, programView_flag, programView_dev]
  by_cases hi : s.flag .i
  · by_cases hp : s.dev.pendingAnswer
    · simp only [hi, hp, if_true]
      exact viewLocal_accept.congr (hpending s)
    · simp only [hi, hp, if_true, if_false, Bool.false_eq_true]
      exact hpending s
  · simp only [hi, if_false, Bool.false_eq_true]
    rfl

theorem viewLocal_retire : ViewLocal State.retire := fun s => by
  have hhalt : ViewLocal State.haltTest := fun t => by
    rw [haltTest_eq, haltTest_eq]
    rfl
  have honTick : ViewLocal State.onTick := fun _ => rfl
  have hrun : s.programView.haltTest.run = s.haltTest.run := by rw [haltTest_eq, haltTest_eq]; rfl
  simp only [State.retire, hrun]
  apply honTick.congr
  split
  · exact viewLocal_interruptCheck.congr (hhalt s)
  · exact hhalt s

/-- Decoding reads CR0 and CR1, which a program observes, and the handler it selects is view-local. -/
theorem dispatch_view {s t : State} (h : s.programView = t.programView) :
    outcomeView (dispatch s) = outcomeView (dispatch t) := by
  have hcr0 : s.cr0 = t.cr0 := by simpa using congrArg State.cr0 h
  have hcr1 : s.cr1 = t.cr1 := by simpa using congrArg State.cr1 h
  have hdecode : decode s.cr1 s.cr0 = decode t.cr1 t.cr0 := by rw [hcr0, hcr1]
  have hunrec : ViewLocal fun u => { u with unrec := true } := fun _ => rfl
  unfold dispatch
  rw [hdecode]
  cases decode t.cr1 t.cr0 with
  | ok i =>
    simp only [exec_eq]
    exact congrArg Host.Outcome.next ((viewLocal_run (handlerOf i)).congr h)
  | error e => exact congrArg Host.Outcome.next (hunrec.congr h)

theorem tick_view {s t : State} (h : s.programView = t.programView) : outcomeView (tick s) = outcomeView (tick t) := by
  have hfetch : ViewLocal State.fetch := fun _ => rfl
  exact outcomeView_mapNext (dispatch_view (hfetch.congr h)) viewLocal_retire

theorem runOrIdle_view {s t : State} (h : s.programView = t.programView) :
    outcomeView (runOrIdle s) = outcomeView (runOrIdle t) := by
  have hrun : s.run = t.run := by simpa using congrArg State.run h
  rw [runOrIdle, runOrIdle, hrun]
  split
  · exact tick_view h
  · exact congrArg Host.Outcome.next h

/-- A poke writes a place a program observes, or DR, which it does not. -/
theorem viewLocal_pokeWrite (p : PokeTarget) (v : Nat) : ViewLocal (State.pokeWrite p v) := fun _ => by
  cases p <;> rfl

/-- Whether a poke is in range does not depend on the state (R380). -/
theorem honour_poke_view (p : PokeTarget) (v : Nat) {s t : State} (h : s.programView = t.programView) :
    outcomeView (honour (.poke p v) s) = outcomeView (honour (.poke p v) t) := by
  have hcall : ViewLocal (State.call .onStateChanged) := fun _ => rfl
  simp only [honour, State.poke]
  cases p.inRange with
  | some e => exact congrArg Host.Outcome.next h
  | none =>
    by_cases hv : v < p.bound
    · simp only [hv, if_true]
      exact congrArg Host.Outcome.next ((hcall.comp (viewLocal_pokeWrite p v)).congr h)
    · simp only [hv, if_false]
      exact congrArg Host.Outcome.next h

theorem honour_view (r : HostRequest) {s t : State} (h : s.programView = t.programView) :
    outcomeView (honour r s) = outcomeView (honour r t) := by
  have hset (b : Bool) : ViewLocal fun u : State => { u with run := b } := fun _ => rfl
  cases r with
  | reset =>
    have hreset : ViewLocal (State.resetSequence Config.resetVectorAddr) := fun _ => rfl
    exact congrArg Host.Outcome.next (hreset.congr h)
  | run => exact congrArg Host.Outcome.next ((hset true).congr h)
  | stop => exact congrArg Host.Outcome.next ((hset false).congr h)
  | step => exact outcomeView_mapNext (tick_view ((hset true).congr h)) (hset false)
  | poke p v => exact honour_poke_view p v h
  | snapshot => exact congrArg Host.Outcome.next h

/-- Settles O20: the request at the boundary is the same in both states, and what it runs respects the view. -/
theorem scratchDoesNotLeak : Obligations.ScratchDoesNotLeak := by
  intro s s' h
  have hhost : s.host = s'.host := by simpa using congrArg State.host h
  have hused (rest : List (Option HostRequest)) : ViewLocal fun u : State => { u with host := rest } := fun _ => rfl
  rw [step, step, boundary, boundary, hhost]
  split
  next => exact runOrIdle_view h
  next rest _ => exact runOrIdle_view ((hused rest).congr h)
  next r rest _ => exact honour_view r ((hused rest).congr h)

end Sys2Proof.Proofs
end

section
/-! PROOFS. An instruction placed in memory is the one the next step runs: the decoder undoes the encoder
(30_encoding.md R106 to R119), and the fetch reads the two cells the placing wrote (R65, R101). -/

namespace Sys2Proof.Proofs

open Sys2Proof.Machine

/-! ## The decoder undoes the encoder -/

/-- The fields of CR0 in format RG: direction, mode and register (R107). -/
theorem fields_rgWord (d : BitVec 1) (m : Mode) (r : RegNum) :
    (rgWord d m r)[7] = d[0] ∧ modeField (rgWord d m r) = m ∧ lowField (rgWord d m r) = r := by
  cases m <;> revert d r <;> decide

/-- The fields of CR1 in format DJ: class and register (R110). -/
theorem fields_djWord (r : RegNum) : (djWord r).extractLsb' 4 4 = 0x1#4 ∧ lowField (djWord r) = r := by
  revert r
  decide

/-- The fields of CR1 in formats BM and BP: class, the bits that select the instruction, and the bit index
(R112, R118). -/
theorem fields_bitWord (op : BitVec 5) (b : BitIdx) :
    (bitWord op b).extractLsb' 4 4 = op.extractLsb' 1 4 ∧ (bitWord op b).extractLsb' 3 3 = op.extractLsb' 0 3 ∧
      lowField (bitWord op b) = b := by
  revert op b
  decide

/-- The two words of an instruction decode to it: where an operand shares a word with the code, each field is read back
from its place; elsewhere the operand is the whole of CR0. -/
theorem decode_encode (i : Instr) : decode (encode i).1 (encode i).2 = .ok i := by
  cases i
  case movRg | pushRg | popRg | outxRg | notRg | addRg | subRg | mulRg | divRg | andRg | orRg | xorRg | cmpRg | rdRg |
      incRg | decRg | adcRg =>
    simp [encode, decode, decodeRegister, slotField, fields_rgWord]
  case subbRg | xchRg => simp [encode, decode, decodeHighRegister, slotField, fields_rgWord]
  case djrnz => simp [encode, decode, fields_djWord]
  case clrb | setb | skbc | skbs | pclrb | psetb | pskbc | pskbs =>
    simp [encode, decode, decodeBit, fields_bitWord]
  case movMd | pushMd | outxMd | notMd | addMd | subMd | mulMd | divMd | andMd | orMd | xorMd | cmpMd | rdMd | incMd |
      decMd | adcMd =>
    simp [encode, decode, decodeMemoryDirect, slotField]
  case pushIm | outxIm | addIm | subIm | mulIm | divIm | andIm | orIm | xorIm | cmpIm | rdIm | adcIm =>
    simp [encode, decode, decodeImmediate, slotField]
  case jz | jnz | jc | jnc | jn | jnn | jo | jno => simp [encode, decode, decodeConditional, slotField]
  case jmp | call | int => simp [encode, decode, decodeControl, slotField]
  case inPort | outPort => simp [encode, decode, decodePort, slotField]
  all_goals rfl

/-! ## Placing and fetching -/

/-- The fetch finds both words of a placed instruction: the second cell, also where the offset wraps, is not the
first (R25, R65, R101). -/
theorem fetch_placeInstruction (cr1 cr0 : Word) (s : State) :
    (s.placeInstruction cr1 cr0).fetch.cr1 = cr1 ∧ (s.placeInstruction cr1 cr0).fetch.cr0 = cr0 := by
  have hne : ea s.cs s.pcl ≠ ea s.cs (s.pcl + 1) := fun h => by
    have := (ea_inj.mp h).2
    bv_omega
  have hread (x : Addr) : (s.placeInstruction cr1 cr0).memRead x =
      if x = ea s.cs (s.pcl + 1) then cr1 else if x = ea s.cs s.pcl then cr0 else s.memRead x := by
    rw [← memRead_memWrite, ← memRead_memWrite]
    rfl
  rw [fetch_eq]
  exact ⟨(hread _).trans (if_pos rfl), (hread _).trans ((if_neg hne).trans (if_pos rfl))⟩

theorem step_placeInstruction (i : Instr) (s : State) :
    step (s.placeInstruction (encode i).1 (encode i).2) =
      mapNext State.retire (exec i (s.placeInstruction (encode i).1 (encode i).2).fetch) := by
  obtain ⟨hcr1, hcr0⟩ := fetch_placeInstruction (encode i).1 (encode i).2 s
  show mapNext State.retire (dispatch _) = _
  rw [dispatch, hcr1, hcr0, decode_encode]

/-- The instruction word of 16 bits, CR1 in its upper half, splits into the two words again (R65, R106). -/
theorem withFetchWord_eq (s : State) (cr1 cr0 : Word) :
    s.withFetchWord 16 (cr1.toNat * 256 + cr0.toNat) = ({ s with pcl := 0x00 } : State).placeInstruction cr1 cr0 := by
  have h1 : BitVec.ofNat 8 ((cr1.toNat * 256 + cr0.toNat) % 2 ^ 16 / 256) = cr1 := by bv_omega
  have h0 : BitVec.ofNat 8 ((cr1.toNat * 256 + cr0.toNat) % 2 ^ 16) = cr0 := by bv_omega
  rw [State.withFetchWord, h1, h0]

/-- Settles O8: `withFetchWord` is itself a placing, at offset 0. -/
theorem placedInstructionRuns : Obligations.PlacedInstructionRuns := fun s i =>
  ⟨step_placeInstruction i s, (withFetchWord_eq s _ _).symm ▸ step_placeInstruction i _⟩

end Sys2Proof.Proofs
end

section
/-! PROOFS. Main memory: which instructions store in it (20_memory.md R64, 42_operands.md R208), and that every handler keeps
its canonical form (R60; log 22). -/

namespace Sys2Proof.Proofs

open Sys2Proof.Machine

/-! ## Which handlers store -/

/-- A handler of this shape stores in main memory, if its operand is a cell or it pushes. -/
def Handler.stores : Handler → Bool
  | .operandOp _ _ _ _ => true
  | .storeAcc _ => true
  | .pushOperand _ => true
  | .popOperand _ => true
  | .exchangeAcc _ => true
  | .call _ => true
  | .int _ => true
  | .writeCellBit _ _ _ => true
  | _ => false

/-- The list of R64 holds the instructions whose handlers store. -/
theorem mem_memoryWriters_of_stores (i : Instr) : (handlerOf i).stores = true → i.mnemonic ∈ memoryWriters := by
  cases i <;> simp [handlerOf, Handler.stores, Instr.mnemonic, memoryWriters]

/-- Every other handler leaves main memory as it is. -/
theorem run_mem_of_not_stores {k : Handler} (h : k.stores = false) (s : State) : (k.run s).mem = s.mem := by
  cases k with
  | operandOp _ _ _ _ | storeAcc _ | pushOperand _ | popOperand _ | exchangeAcc _ | call _ | int _
  | writeCellBit _ _ _ => exact absurd h Bool.noConfusion
  | accOp op f o => exact load_mem o s
  | accCompare op f o => exact load_mem o s
  | loadAcc o => exact load_mem o s
  | writePortOperand o => exact load_mem o s
  | jump cond t => simp [Handler.run, jumpIf_eq]
  | djrnz r t => simp [Handler.run, jumpIf_eq, decrementRegister_eq]
  | iret => simp [Handler.run, interruptReturn_eq]
  | skipOnCell b v a => simp [Handler.run, skipOnCell, skipIf_eq, readCell]
  | skipOnPort b v p => simp [Handler.run, skipOnPort, skipIf_eq]
  | _ => rfl

/-- Settles O24: an instruction outside the list has a handler that does not store. -/
theorem onlyTheListedInstructionsWriteMemory : Obligations.OnlyTheListedInstructionsWriteMemory := fun i s =>
  ⟨_, exec_eq i s, fun h => memKept_of_mem
    (run_mem_of_not_stores (Bool.eq_false_iff.mpr fun hk => h (mem_memoryWriters_of_stores i hk)) s)⟩

/-! ## The canonical form -/

theorem wf_locWrite (l : Loc) (v : Word) (s : State) (h : Memory.wf s.mem = true) :
    Memory.wf (l.write v s).mem = true := by
  cases l with
  | reg r => exact h
  | mem x => exact wf_memWrite { s with dl := v, al := x } x v h
  | imm k => exact h

theorem wf_writeBack (o : Operand) (s0 : State) (v : Word) (s : State) (h : Memory.wf s.mem = true) :
    Memory.wf (o.writeBack s0 v s).mem = true := by
  rw [Operand.writeBack, stepAfter_mem]
  exact wf_locWrite _ v s h

theorem wf_pushDl (s : State) (h : Memory.wf s.mem = true) : Memory.wf s.pushDl.mem = true := by
  rw [pushDl_eq]
  exact wf_memWrite _ _ _ h

/-- The two pushes of an entry (R341). -/
theorem wf_saveForEntry (s : State) (h : Memory.wf s.mem = true) : Memory.wf s.saveForEntry.mem = true :=
  wf_pushDl _ (wf_pushDl s.ldPcl h)

/-- Every handler keeps memory in canonical form. -/
theorem wf_run (k : Handler) (s : State) (h : Memory.wf s.mem = true) : Memory.wf (k.run s).mem = true := by
  cases hk : k.stores with
  | false => rwa [run_mem_of_not_stores hk]
  | true =>
    cases k with
    | operandOp op hop f o => exact wf_writeBack o s _ _ (by simpa using h)
    | storeAcc o => exact wf_writeBack o s _ _ (by simpa using h)
    | pushOperand o => exact wf_pushDl _ (by simpa using h)
    | popOperand o => exact wf_writeBack o s _ _ (by simpa [popDl_mem] using h)
    | exchangeAcc o => exact wf_writeBack o s _ _ (by simpa using h)
    | call t => exact wf_pushDl s.ldPcl h
    | int n =>
      rw [Handler.run, State.softwareInterrupt, vector_eq]
      exact wf_saveForEntry s h
    | writeCellBit b v a => exact wf_memWrite _ _ _ h
    | _ => exact absurd hk Bool.noConfusion

end Sys2Proof.Proofs
end

section
/-! PROOFS. The invariant: it holds at reset, and every part of a step keeps the canonical form of memory (20_memory.md R60;
log 22) and leaves no snapshot of the flags controller pending (41_alu_flags.md R190). -/

namespace Sys2Proof.Proofs

open Sys2Proof.Machine

/-- Settles O17. -/
theorem resetHasTheInvariant : Obligations.ResetHasTheInvariant := ⟨rfl, rfl, rfl⟩

/-! ## Handlers -/

/-- A change of state that keeps the invariant. -/
def KeepsInvariant (f : State → State) : Prop := ∀ s, Invariant s → Invariant (f s)

/-- No snapshot is pending after a handler: a flag update clears both valid bits (R190), and no other handler takes a
snapshot. -/
theorem run_snapshots (k : Handler) (s : State) (hpre : s.preValid = false) (harg : s.argValid = false) :
    (k.run s).preValid = false ∧ (k.run s).argValid = false := by
  cases k with
  | accOp _ _ _ | accCompare _ _ _ | operandOp _ _ _ _ | accAdjust _ _ _ => exact ⟨rfl, rfl⟩
  | storeAcc o => simp [Handler.run, storeAcc, Operand.store, hpre, harg]
  | loadAcc o => simp [Handler.run, loadAcc, hpre, harg]
  | pushOperand o => simp [Handler.run, pushOperand, pushDl_eq, hpre, harg]
  | popOperand o => simp [Handler.run, popOperand_eq, popDl_eq, hpre, harg]
  | writePortOperand o => simp [Handler.run, writePortOperand, hpre, harg]
  | exchangeAcc o => simp [Handler.run, exchangeAcc, hpre, harg]
  | jump cond t => simp [Handler.run, jumpIf_eq, hpre, harg]
  | djrnz r t => simp [Handler.run, jumpIf_eq, decrementRegister_eq, hpre, harg]
  | skipOnCell b v a => simp [Handler.run, skipOnCell, skipIf_eq, readCell, hpre, harg]
  | skipOnPort b v p => simp [Handler.run, skipOnPort, skipIf_eq, hpre, harg]
  | call t => simp [Handler.run, jumpTo, pushDl_eq, hpre, harg]
  | ret => simp [Handler.run, popDl_eq, hpre, harg]
  | int n => simp [Handler.run, State.softwareInterrupt, vector_eq, saveForEntry_eq, hpre, harg]
  | iret => simp [Handler.run, interruptReturn_eq, hpre, harg]
  | writeCellBit b v a => simp [Handler.run, writeCellBit_eq, hpre, harg]
  | _ => exact ⟨hpre, harg⟩

theorem keepsInvariant_run (k : Handler) : KeepsInvariant k.run := fun s ⟨hwf, hpre, harg⟩ =>
  ⟨wf_run k s hwf, run_snapshots k s hpre harg⟩

/-! ## The tick -/

/-- An acceptance pushes as INT does, and takes no snapshot (R341). -/
theorem keepsInvariant_accept : KeepsInvariant State.accept := fun s ⟨hwf, hpre, harg⟩ => by
  rw [State.accept, vector_eq]
  refine ⟨wf_saveForEntry s hwf, ?_, ?_⟩
  · simpa [saveForEntry_eq] using hpre
  · simpa [saveForEntry_eq] using harg

theorem keepsInvariant_interruptCheck : KeepsInvariant State.interruptCheck := fun s h => by
  have hasked : Invariant s.irqPending := h
  unfold State.interruptCheck
  split_ifs
  · exact keepsInvariant_accept _ hasked
  · exact hasked
  · exact h

theorem keepsInvariant_retire : KeepsInvariant State.retire := fun s h => by
  have hhalt : Invariant s.haltTest := by
    rw [haltTest_eq]
    exact h
  have honTick : KeepsInvariant State.onTick := fun _ ht => ht
  unfold State.retire
  apply honTick
  split_ifs
  · exact keepsInvariant_interruptCheck _ hhalt
  · exact hhalt

/-- The states an outcome can go on in meet the invariant. -/
def NextInvariant (o : Host.Outcome State Fault Refusal) : Prop := ∀ t, o = .next t → Invariant t

theorem nextInvariant_next {s : State} (h : Invariant s) : NextInvariant (.next s) := fun _ ht =>
  Host.Outcome.next.inj ht ▸ h

theorem NextInvariant.mapNext {o : Host.Outcome State Fault Refusal} (h : NextInvariant o) {f : State → State}
    (hf : KeepsInvariant f) : NextInvariant (mapNext f o) := by
  cases o with
  | next s => exact nextInvariant_next (hf s (h s rfl))
  | fault r => exact fun _ ht => nomatch ht
  | refused r => exact fun _ ht => nomatch ht

/-- A recognised word runs a handler, any other sets UNREC (R103, R121). -/
theorem nextInvariant_dispatch {s : State} (h : Invariant s) : NextInvariant (dispatch s) := by
  unfold dispatch
  cases decode s.cr1 s.cr0 with
  | ok i =>
    simp only [exec_eq]
    exact nextInvariant_next (keepsInvariant_run _ s h)
  | error e => exact nextInvariant_next h

theorem nextInvariant_tick {s : State} (h : Invariant s) : NextInvariant (tick s) := by
  have hfetch : Invariant s.fetch := h
  exact (nextInvariant_dispatch hfetch).mapNext keepsInvariant_retire

theorem nextInvariant_runOrIdle {s : State} (h : Invariant s) : NextInvariant (runOrIdle s) := by
  unfold runOrIdle
  split_ifs
  · exact nextInvariant_tick h
  · exact nextInvariant_next h

/-! ## The host's requests -/

/-- Reset clears one cell and leaves no snapshot valid (R49, R370). -/
theorem keepsInvariant_resetSequence (rva : Fin 1023) : KeepsInvariant (State.resetSequence rva) :=
    fun s ⟨hwf, _, _⟩ => by
  rw [resetSequence_eq]
  exact ⟨wf_memWrite _ _ _ hwf, rfl, rfl⟩

/-- A poke writes at most one cell, at an address of the latch's ten bits (R380). -/
theorem keepsInvariant_pokeWrite (p : PokeTarget) (v : Nat) : KeepsInvariant (State.pokeWrite p v) :=
  fun s ⟨hwf, hpre, harg⟩ => by
  cases p with
  | memory a => exact ⟨wf_memWrite _ _ _ hwf, hpre, harg⟩
  | _ => exact ⟨hwf, hpre, harg⟩

theorem nextInvariant_honour (r : HostRequest) {s : State} (h : Invariant s) : NextInvariant (honour r s) := by
  cases r with
  | reset => exact nextInvariant_next (keepsInvariant_resetSequence _ s h)
  | run => exact nextInvariant_next h
  | stop => exact nextInvariant_next h
  | step =>
    have hstopped : KeepsInvariant fun t => { t with run := false } := fun _ ht => ht
    exact (nextInvariant_tick (s := { s with run := true }) h).mapNext hstopped
  | poke p v =>
    apply nextInvariant_next
    unfold State.poke
    cases p.inRange with
    | some e => exact h
    | none =>
      by_cases hv : v < p.bound
      · simp only [hv, if_true]
        exact keepsInvariant_pokeWrite p v s h
      · simp only [hv, if_false]
        exact h
  | snapshot => exact nextInvariant_next h

/-- Settles O18: with a request at the boundary it is honoured, else the core runs or idles; each keeps the
invariant. -/
theorem stepKeepsTheInvariant : Obligations.StepKeepsTheInvariant := by
  intro s t h
  have hused (rest : List (Option HostRequest)) : Invariant { s with host := rest } := h
  have hstep : NextInvariant (step s) := by
    unfold step boundary
    split
    next => exact nextInvariant_runOrIdle h
    next rest _ => exact nextInvariant_runOrIdle (hused rest)
    next r rest _ => exact nextInvariant_honour r (hused rest)
  exact hstep t

end Sys2Proof.Proofs
end

section
/-! PROOFS. The encoding (30_encoding.md R106 to R122): the encoder writes back what the decoder reads, and with that
which words are no instruction and which bits select nothing. -/

namespace Sys2Proof.Proofs

open Sys2Proof.Machine

/-- Settles O1: each field of an encoded instruction is read back from its place. -/
theorem decodeOfEncode : Obligations.DecodeOfEncode := decode_encode

/-! ## The ignored bits -/

/-- The two words of an instruction with the ignored bits cleared, by format (R107, R110, R111, R122). -/
def clearIgnored (cr1 cr0 : Word) : Word × Word :=
  if cr1 ≤ 0x0F#8 then (0x00#8, cr0)
  else if cr1 ≤ 0x1F#8 then (cr1 &&& 0xF7#8, cr0)
  else if inRegisterClass cr1 then (cr1, if cr1 = 0x51#8 then cr0 &&& 0x9F#8 else cr0 &&& 0x9F#8 &&& 0x7F#8)
  else (cr1, cr0)

/-- Masking out bits that are clear changes nothing. -/
theorem and_not_of_and_eq_zero {w m : Word} (h : w &&& m = 0#8) : w &&& ~~~m = w := by
  calc w &&& ~~~m = (w &&& ~~~m) ||| (w &&& m) := by simp [h]
    _ = w := by rw [← BitVec.and_or_distrib_left, BitVec.or_comm, BitVec.or_not_self, BitVec.and_allOnes]

theorem clearIgnored_of_wellFormed {cr1 cr0 : Word} (h : wellFormedWord cr1 cr0 = true) :
    clearIgnored cr1 cr0 = (cr1, cr0) := by
  simp only [wellFormedWord, rgIgnoredBitsClear, djIgnoredBitClear, naIgnoredBitsClear, Bool.and_eq_true,
    Bool.or_eq_true, Bool.not_eq_true', decide_eq_true_eq, decide_eq_false_iff_not] at h
  obtain ⟨⟨⟨-, hrg⟩, hdj⟩, hna⟩ := h
  unfold clearIgnored
  split_ifs with h1 h2 h3 h4
  · rw [hna.resolve_left (not_not_intro h1)]
  · have hclear := hdj.resolve_left (not_not_intro ⟨by bv_omega, h2⟩)
    exact congrArg (·, cr0) (and_not_of_and_eq_zero hclear)
  · obtain ⟨hmid, -⟩ := hrg.resolve_left (by simp [h3])
    exact congrArg (cr1, ·) (and_not_of_and_eq_zero hmid)
  · obtain ⟨hmid, hdir⟩ := hrg.resolve_left (by simp [h3])
    have hkept : cr0 &&& 0x9F#8 = cr0 := and_not_of_and_eq_zero hmid
    rw [hkept]
    exact congrArg (cr1, ·) (and_not_of_and_eq_zero (hdir.resolve_left h4))
  · rfl

theorem clearIgnored_of_inRegisterClass {cr1 : Word} (h : inRegisterClass cr1 = true) (cr0 : Word) :
    clearIgnored cr1 cr0 = (cr1, if cr1 = 0x51#8 then cr0 &&& 0x9F#8 else cr0 &&& 0x9F#8 &&& 0x7F#8) := by
  have hclass := h
  simp only [inRegisterClass, Bool.or_eq_true, decide_eq_true_eq] at h
  rw [clearIgnored, if_neg (by bv_omega), if_neg (by bv_omega), if_pos hclass]

theorem unrecognised_of_inRegisterClass {cr1 : Word} (h : inRegisterClass cr1 = true) (cr0 : Word) :
    unrecognised cr1 cr0 = false := by
  simp only [inRegisterClass, Bool.or_eq_true, decide_eq_true_eq] at h
  simp only [unrecognised, Bool.or_eq_false_iff, Bool.and_eq_false_iff, decide_eq_false_iff_not]
  bv_omega

/-! ## The encoder writes back what the decoder reads -/

/-- Decoding two words and encoding the instruction read gives nothing for a word R122 lists, and for any other the
word itself with its ignored bits cleared. -/
def ReadsBack (cr1 cr0 : Word) : Prop :=
  (decode cr1 cr0).toOption.map encode = if unrecognised cr1 cr0 then none else some (clearIgnored cr1 cr0)

/-- The fields of CR0 in format RG hold every bit but the ignored ones; the direction `CR0[7]` counts in slot 1 alone
(R107). -/
theorem rgWord_fields (cr0 : Word) :
    rgWord (BitVec.ofBool (cr0.getLsbD 7)) (modeField cr0) (lowField cr0) = cr0 &&& 0x9F#8 ∧
      rgWord 0 (modeField cr0) (lowField cr0) = cr0 &&& 0x9F#8 &&& 0x7F#8 := by
  revert cr0
  decide

/-- CR1 = `0x50..0x5F`: slot 1 is PUSH or POP by the direction (R107, R115). -/
theorem readsBack_register (lo : BitVec 4) (cr0 : Word) : ReadsBack (0x5#4 ++ lo) cr0 := by
  obtain ⟨hpushPop, hother⟩ := rgWord_fields cr0
  fin_cases lo
  · exact congrArg (fun w => some (_, w)) hother
  · show some (encode (if cr0.getLsbD 7 then .popRg _ _ else .pushRg _ _)) = some (0x51, cr0 &&& 0x9F#8)
    rw [← hpushPop]
    cases cr0.getLsbD 7 <;> rfl
  all_goals exact congrArg (fun w => some (_, w)) hother

/-- CR1 = `0xF0..0xFF`: SUBB, XCH and no other (R114, R115). -/
theorem readsBack_highRegister (lo : BitVec 4) (cr0 : Word) : ReadsBack (0xF#4 ++ lo) cr0 := by
  obtain ⟨-, hother⟩ := rgWord_fields cr0
  fin_cases lo
  · exact congrArg (fun w => some (_, w)) hother
  · exact congrArg (fun w => some (_, w)) hother
  all_goals rfl

/-- In class NA the low nibble of CR1 counts only beside a zero CR0 (R104, R111). -/
theorem decode_nonAddressed (lo : BitVec 4) {cr0 : Word} (h : cr0 ≠ 0) :
    decode (lo.setWidth 8) cr0 = decodeNonAddressed 0 cr0 := by
  have hclass : decode (lo.setWidth 8) cr0 = decodeNonAddressed (lo.setWidth 8) cr0 := by fin_cases lo <;> rfl
  rw [hclass]
  unfold decodeNonAddressed
  split
  case h_1 hzero => exact absurd (BitVec.eq_of_toNat_eq hzero) h
  all_goals rfl

theorem unrecognised_nonAddressed (lo : BitVec 4) {cr0 : Word} (h : cr0 ≠ 0x00#8) :
    unrecognised (lo.setWidth 8) cr0 = decide (0x11#8 ≤ cr0) := by
  simp only [unrecognised, decide_eq_false h]
  generalize decide (0x11#8 ≤ cr0) = above
  revert lo above
  decide

/-- Format NA: CR0 is the opcode, with codes up to `0x10` (R111, R117). -/
theorem readsBack_nonAddressed (lo : BitVec 4) (cr0 : Word) : ReadsBack (lo.setWidth 8) cr0 := by
  by_cases h : cr0 = 0
  · subst h
    fin_cases lo <;> rfl
  · rw [ReadsBack, decode_nonAddressed lo h, unrecognised_nonAddressed lo h]
    have hclear : clearIgnored (lo.setWidth 8) cr0 = (0x00#8, cr0) := by fin_cases lo <;> rfl
    rw [hclear]
    clear hclear h
    revert cr0
    decide

/-- By the class, the high nibble of CR1 (R114). Outside NA and RG, CR1 alone selects the instruction, and CR0 is its
operand as it stands. -/
theorem readsBack (cr1 cr0 : Word) : ReadsBack cr1 cr0 := by
  obtain ⟨hi, lo, rfl⟩ : ∃ hi lo : BitVec 4, cr1 = hi ++ lo :=
    ⟨cr1.extractLsb' 4 4, cr1.extractLsb' 0 4, by revert cr1; decide⟩
  fin_cases hi
  -- Goal `n + 1` is class `n`.
  on_goal 16 => exact readsBack_highRegister lo cr0
  on_goal 6 => exact readsBack_register lo cr0
  on_goal 1 =>
    have hzero : 0x0#4 ++ lo = lo.setWidth 8 := by revert lo; decide
    exact hzero ▸ readsBack_nonAddressed lo cr0
  all_goals fin_cases lo <;> rfl

theorem decode_of_recognised {cr1 cr0 : Word} (h : unrecognised cr1 cr0 = false) :
    ∃ i, decode cr1 cr0 = .ok i ∧ encode i = clearIgnored cr1 cr0 := by
  have hback := readsBack cr1 cr0
  rw [ReadsBack, h] at hback
  cases hdecode : decode cr1 cr0 with
  | ok i => exact ⟨i, rfl, Option.some.inj (by simpa [hdecode, Except.toOption] using hback)⟩
  | error e => simp [hdecode, Except.toOption] at hback

theorem decode_of_unrecognised {cr1 cr0 : Word} (h : unrecognised cr1 cr0 = true) :
    ∃ e, decode cr1 cr0 = .error e := by
  have hback := readsBack cr1 cr0
  rw [ReadsBack, h] at hback
  cases hdecode : decode cr1 cr0 with
  | ok i => simp [hdecode, Except.toOption] at hback
  | error e => exact ⟨e, rfl⟩

/-- Settles O2: the word written back has its ignored bits cleared, and a well-formed word has none set. -/
theorem encodeOfDecode : Obligations.EncodeOfDecode := by
  intro cr1 cr0 h
  have hrecognised : unrecognised cr1 cr0 = false := by
    simp only [wellFormedWord, Bool.and_eq_true, Bool.not_eq_true'] at h
    obtain ⟨⟨⟨hrecognised, -⟩, -⟩, -⟩ := h
    exact hrecognised
  obtain ⟨i, hdecode, hencode⟩ := decode_of_recognised hrecognised
  exact ⟨i, hdecode, hencode.trans (clearIgnored_of_wellFormed h)⟩

/-- Settles O3: R122 lists the words from which nothing is written back. -/
theorem refusedWordsAreThoseListed : Obligations.RefusedWordsAreThoseListed := by
  intro cr1 cr0
  refine ⟨fun ⟨e, herror⟩ => ?_, decode_of_unrecognised⟩
  by_contra h
  obtain ⟨i, hok, -⟩ := decode_of_recognised (Bool.eq_false_iff.mpr h)
  exact nomatch herror.symm.trans hok

/-- Two recognised words that agree but for ignored bits are the same instruction: both are read as one whose encoding
they are, and no two instructions share an encoding. -/
theorem decode_eq_of_clearIgnored_eq {c w c' w' : Word} (h : unrecognised c w = false)
    (h' : unrecognised c' w' = false) (heq : clearIgnored c w = clearIgnored c' w') : decode c w = decode c' w' := by
  obtain ⟨i, hdecode, hencode⟩ := decode_of_recognised h
  obtain ⟨i', hdecode', hencode'⟩ := decode_of_recognised h'
  have hsame : encode i = encode i' := hencode.trans (heq.trans hencode'.symm)
  calc decode c w = .ok i := hdecode
    _ = decode (encode i').1 (encode i').2 := by rw [← hsame, decode_encode]
    _ = .ok i' := decode_encode i'
    _ = decode c' w' := hdecode'.symm

/-- Settles O4: in format RG two words that differ in ignored bits are one and the same with those bits cleared; the
decoder does not look at the ignored bit of format DJ, nor at those of NA. -/
theorem ignoredBitsSelectNothing : Obligations.IgnoredBitsSelectNothing := by
  have hregister {cr1 w w' : Word} (h : inRegisterClass cr1 = true) (heq : clearIgnored cr1 w = clearIgnored cr1 w') :
      decode cr1 w = decode cr1 w' :=
    decode_eq_of_clearIgnored_eq (unrecognised_of_inRegisterClass h w) (unrecognised_of_inRegisterClass h w') heq
  refine ⟨fun cr1 cr0 h => hregister h ?_, fun cr1 cr0 h hslot => hregister h ?_, fun r t => ?_, fun x w hw => ?_⟩
  · simp only [clearIgnored_of_inRegisterClass h, BitVec.and_assoc]
    rfl
  · have hslot' : cr1 ≠ 0x51#8 := hslot
    simp only [clearIgnored_of_inRegisterClass h, if_neg hslot', BitVec.and_assoc]
    rfl
  · fin_cases r <;> rfl
  · exact (decode_nonAddressed x hw).trans (decode_nonAddressed 0 hw).symm

end Sys2Proof.Proofs
end

section
/-! PROOFS. The tick (30_encoding.md R100 to R105): fetch, decode and execute, halt test, interrupt check, callback. -/

namespace Sys2Proof.Proofs

open Sys2Proof.Machine

/-! ## Fetch and dispatch -/

/-- Settles O6: the two increments of PCL are one step of two, also modulo 256 (R25). -/
theorem fetchReadsTwoWords : Obligations.FetchReadsTwoWords := by
  intro s
  rw [fetch_eq, BitVec.add_assoc]
  exact ⟨rfl, memKept_of_mem rfl⟩

/-- A running machine at a boundary without a request runs a tick (R376). -/
theorem step_of_running {s : State} (hrun : s.run = true) (hhost : s.host.headD none = none) :
    step s = mapNext State.retire (dispatch { s with host := s.host.tail : State }.fetch) := by
  rw [step_of_silent hhost, runOrIdle]
  exact if_pos hrun

theorem dispatch_of_ok {s : State} {i : Instr} (h : decode s.cr1 s.cr0 = .ok i) : dispatch s = exec i s := by
  rw [dispatch, h]

theorem dispatch_of_error {s : State} {e : DecodeError} (h : decode s.cr1 s.cr0 = .error e) :
    dispatch s = .next { s with unrec := true } := by
  rw [dispatch, h]

/-- Settles O7. -/
theorem stepRunsTheDecodedInstruction : Obligations.StepRunsTheDecodedInstruction := by
  intro s i hrun hhost hdecode
  rw [step_of_running hrun hhost, dispatch_of_ok]
  exact hdecode

/-- Settles O11: the decoder refuses every word of the list. -/
theorem unrecognisedWordSetsTheConditionLatch : Obligations.UnrecognisedWordSetsTheConditionLatch := by
  intro s hrun hhost hword
  obtain ⟨e, herror⟩ := decode_of_unrecognised hword
  rw [step_of_running hrun hhost, dispatch_of_error (e := e)]
  · rfl
  · exact herror

/-! ## The end of a tick -/

theorem interruptCheck_run (s : State) : s.interruptCheck.run = s.run := by
  unfold State.interruptCheck
  split_ifs
  · simp [State.accept, vector_eq, saveForEntry_eq]
  · rfl
  · rfl

/-- Settles O9: the interrupt check keeps RUN, so `onTick` reports the RUN the halt test left. -/
theorem tickEndsInHaltTestThenInterruptCheck : Obligations.TickEndsInHaltTestThenInterruptCheck := by
  intro s
  split
  next h =>
    have hhalted : s.haltTest = { s with run := false } := by
      rw [haltTest_eq]
      rcases h with h | h <;> simp [h]
    rw [State.retire, hhalted]
    rfl
  next h =>
    obtain ⟨hon, hword⟩ := not_or.mp h
    have hgoes : s.haltTest = s := if_neg hword
    have htrue : s.run = true := by simpa using hon
    rw [State.retire, hgoes, if_pos htrue, State.onTick, interruptCheck_run, htrue]

/-! ## Halting -/

/-- A tick whose handler stopped the machine ends in the callback alone (R104, R345). -/
theorem retire_of_stopped {s : State} (h : s.run = false) : s.retire = s.call (.onTick s.pcl s.cs false) := by
  have hkept : { s with run := false } = s := by rw [← h]
  rw [tickEndsInHaltTestThenInterruptCheck, if_pos (.inl h), hkept]

/-- The fetch of the all-zero word (R101, R104). -/
theorem fetch_of_zero {s : State} (hcr1 : s.memRead (ea s.cs (s.pcl + 1)) = 0x00)
    (hcr0 : s.memRead (ea s.cs s.pcl) = 0x00) :
    s.fetch = { s with al := ea s.cs (s.pcl + 1), cr0 := 0x00, cr1 := 0x00, pcl := s.pcl + 2 } := by
  rw [fetch_eq, hcr1, hcr0, BitVec.add_assoc]
  rfl

theorem dispatch_of_zero {s : State} (hcr1 : s.cr1 = 0x00) (hcr0 : s.cr0 = 0x00) :
    dispatch s = .next { s with run := false } :=
  dispatch_of_ok (i := .implicitHalt) (by rw [hcr1, hcr0]; rfl)

/-- Settles O12: the all-zero word is the implicit halt, and a stopped machine makes no interrupt check. -/
theorem allZeroWordHalts : Obligations.AllZeroWordHalts := by
  intro s hrun hhost hcr1 hcr0
  have hfetch := fetch_of_zero (s := { s with host := s.host.tail }) hcr1 hcr0
  rw [step_of_running hrun hhost, hfetch, dispatch_of_zero rfl rfl]
  exact ⟨_, congrArg Host.Outcome.next (retire_of_stopped rfl), rfl, fun _ => rfl⟩

/-- Settles O54. -/
theorem haltsClearRun : Obligations.HaltsClearRun :=
  ⟨fun s => ⟨⟨{ s with run := false }, rfl, rfl, fun _ => rfl⟩, ⟨{ s with run := false }, rfl, rfl, fun _ => rfl⟩⟩,
    codeNa_of 0x0A .hlt rfl (by decide), rfl⟩

end Sys2Proof.Proofs
end

section
/-! PROOFS. The rotates of ACC, bit by bit (40_microcode.md R159, 45_non_addressed.md R285 to R288). -/

namespace Sys2Proof.Proofs

open Sys2Proof.Machine

/-! ## The bits of a rotated Word -/

/-- The bits of a Word shifted left by one (R9). -/
theorem getLsbD_shiftLeft_one (x : Word) {k : Nat} (hk : k < 8) :
    (x <<< 1).getLsbD k = if k = 0 then false else x.getLsbD (k - 1) := by
  rw [BitVec.getLsbD_shiftLeft]
  by_cases h0 : k = 0
  · simp [h0]
  · simp [hk, h0]

/-- ROL takes bit 0 from the other end: the right shift by seven holds the old bit 7 there and nothing above. -/
theorem getLsbD_rol (x : Word) {k : Nat} (hk : k < 8) : (rol x).1.getLsbD k = x.getLsbD ((k + 7) % 8) := by
  rw [rol, BitVec.getLsbD_or, getLsbD_shiftLeft_one x hk, BitVec.getLsbD_ushiftRight]
  by_cases h0 : k = 0
  · simp [h0]
  · have hbeside : (k + 7) % 8 = k - 1 := by omega
    have hnone : x.getLsbD (7 + k) = false := BitVec.getLsbD_of_ge x _ (by omega)
    rw [if_neg h0, hbeside, hnone, Bool.or_false]

/-- ROR takes bit 7 from the other end: the left shift by seven holds the old bit 0 there and nothing below. -/
theorem getLsbD_ror (x : Word) {k : Nat} (hk : k < 8) : (ror x).1.getLsbD k = x.getLsbD ((k + 1) % 8) := by
  rw [ror, BitVec.getLsbD_or, BitVec.getLsbD_ushiftRight, BitVec.getLsbD_shiftLeft]
  by_cases h7 : k = 7
  · simp [h7]
  · have hbeside : (k + 1) % 8 = 1 + k := by omega
    have hbelow : k < 7 := by omega
    simp [hbeside, hbelow]

/-- ROLC fills bit 0, which the left shift cleared, with the carry. -/
theorem getLsbD_rolc (c : Bool) (x : Word) {k : Nat} (hk : k < 8) :
    (rolc c x).1.getLsbD k = if k = 0 then c else x.getLsbD (k - 1) := by
  rw [rolc, getLsbD_setBit _ _ _ _ (by omega), getLsbD_shiftLeft_one x hk]
  split_ifs <;> rfl

/-- RORC fills bit 7, which the right shift cleared, with the carry. -/
theorem getLsbD_rorc (c : Bool) (x : Word) (k : Nat) :
    (rorc c x).1.getLsbD k = if k = 7 then c else x.getLsbD (k + 1) := by
  rw [rorc, getLsbD_setBit _ _ _ _ (by omega), BitVec.getLsbD_ushiftRight, Nat.add_comm 1 k]

/-! ## The four instructions -/

/-- An instruction that rotates ACC moves the bits as its rotate does, puts the bit moved out into C and keeps the
rest. -/
theorem runs_of_exec_rotateAcc {i : Instr} {s : State} {x : Word × Bool} {bit : Nat → Bool}
    (hexec : exec i s = .next (s.rotateAcc x)) (hbit : ∀ k, k < 8 → x.1.getLsbD k = bit k) :
    Runs i s fun t =>
      t.settled = { s with acc := t.acc, flags := t.flags : State }.settled ∧ (∀ k, k < 8 → t.acc.getLsbD k = bit k) ∧
        (∀ f, t.flag f = if f = .c then x.2 else s.flag f) ∧ MemKept s t :=
  ⟨s.rotateAcc x, hexec, rfl, hbit, fun f => flagOf_withFlag .c f x.2 s.flags, memKept_of_mem rfl⟩

/-- Settles O53: the bits come from the four rotates of R159, the frame from what any rotate of ACC keeps. -/
theorem rotatesMoveEachBitByOne : Obligations.RotatesMoveEachBitByOne := by
  refine ⟨fun s => ⟨?rl, ?rr, ?rlc, ?rrc⟩, codeNa_of 0x06 .rl rfl (by decide), codeNa_of 0x07 .rr rfl (by decide),
    codeNa_of 0x08 .rlc rfl (by decide), codeNa_of 0x09 .rrc rfl (by decide)⟩
  case rl => exact runs_of_exec_rotateAcc (exec_eq .rl s) fun _ hk => getLsbD_rol s.acc hk
  case rr => exact runs_of_exec_rotateAcc (exec_eq .rr s) fun _ hk => getLsbD_ror s.acc hk
  case rlc => exact runs_of_exec_rotateAcc (exec_eq .rlc s) fun _ hk => getLsbD_rolc (s.flag .c) s.acc hk
  case rrc => exact runs_of_exec_rotateAcc (exec_eq .rrc s) fun k _ => getLsbD_rorc (s.flag .c) s.acc k

end Sys2Proof.Proofs
end

section
/-! PROOFS. Word arithmetic and the arithmetic category of the flags controller (41_alu_flags.md R170 to R187), and that
nothing ends in a fault or a refusal (41_alu_flags.md R191, 60_exceptions.md R330). -/

namespace Sys2Proof.Proofs

open Sys2Proof.Machine

/-! ## Addition and subtraction -/

/-- Reducing the sum modulo 256 is the addition of Words (R170, R171). -/
theorem add8_fst (a b : Word) : (add8 a b).1 = a + b := rfl

/-- Reducing the difference modulo 256 is the subtraction of Words (R170, R172). -/
theorem sub8_fst (a b : Word) : (sub8 a b).1 = a - b := by
  have ha := a.isLt
  have hb := b.isLt
  apply BitVec.eq_of_toNat_eq
  rw [sub8, BitVec.toNat_ofInt, BitVec.toNat_sub]
  omega

/-- A sum wrapped exactly when it is below its second summand. -/
theorem add_toNat_lt_iff (a b : Word) : (a + b).toNat < b.toNat ↔ a.toNat + b.toNat > 255 := by
  have ha := a.isLt
  have hb := b.isLt
  rw [BitVec.toNat_add]
  omega

/-- Settles O26. -/
theorem subtractUndoesAdd : Obligations.SubtractUndoesAdd := by
  intro a b
  rw [sub8_fst, add8_fst]
  exact ⟨BitVec.add_sub_cancel a b, decide_eq_decide.mpr (add_toNat_lt_iff a b)⟩

/-! ## Nothing traps and nothing is refused -/

theorem mapNext_goesOn {o : Host.Outcome State Fault Refusal} (h : ∃ t, o = .next t) (f : State → State) :
    ∃ t, mapNext f o = .next t := by
  obtain ⟨t, rfl⟩ := h
  exact ⟨f t, rfl⟩

/-- A recognised word runs a handler, any other sets UNREC and goes on (R121, R334). -/
theorem dispatch_goesOn (s : State) : ∃ t, dispatch s = .next t := by
  cases hdecode : decode s.cr1 s.cr0 with
  | ok i => exact ⟨_, (dispatch_of_ok hdecode).trans (exec_eq i s)⟩
  | error e => exact ⟨_, dispatch_of_error hdecode⟩

theorem tick_goesOn (s : State) : ∃ t, tick s = .next t := mapNext_goesOn (dispatch_goesOn s.fetch) State.retire

theorem runOrIdle_goesOn (s : State) : ∃ t, runOrIdle s = .next t := by
  unfold runOrIdle
  split
  · exact tick_goesOn s
  · exact ⟨s, rfl⟩

/-- Only the step request runs an instruction; a rejected poke is no refusal of the machine (R376, R380). -/
theorem honour_goesOn (r : HostRequest) (s : State) : ∃ t, honour r s = .next t := by
  cases r with
  | step => exact mapNext_goesOn (tick_goesOn { s with run := true }) _
  | reset | run | stop | poke | snapshot => exact ⟨_, rfl⟩

/-- Settles O19: every handler takes the snapshots its flag update needs (`exec_eq`), and fetch, halt test, interrupt
check and the host's requests cannot fail. -/
theorem everyInstructionAndStepGoesOn : Obligations.EveryInstructionAndStepGoesOn := by
  refine ⟨fun i s => ⟨_, exec_eq i s⟩, fun s => ?_⟩
  unfold step boundary
  split
  next => exact runOrIdle_goesOn s
  next rest _ => exact runOrIdle_goesOn { s with host := rest }
  next r rest _ => exact honour_goesOn r { s with host := rest }

/-! ## The arithmetic category -/

/-- Every operation of the arithmetic category takes both snapshots (R180, R181). -/
theorem twoOperand_of_arithmetic {op : AluOp} (h : op.category = .arithmetic) : op.twoOperand = true := by
  revert h
  cases op <;> decide

/-- The arithmetic mask writes the five condition flags and no other (R187). -/
theorem flagsAre_of_arithmeticMask {s t : State} {z n o a c : Bool}
    (h : t.flags = applyMask .arithmetic z n o a c s.flags) : FlagsAre z n o a c s t := by
  simp [FlagsAre, State.flag, h, applyMask]

/-- An instruction of the shape `ACC <- f(ACC, operand, C)` in the arithmetic category: the result and C come from `f`, A
from the operation's half-carry rule (R180 to R187). -/
theorem arithmeticResult_of_accOp {i : Instr} {op : AluOp} {f : Word → Word → Bool → Word × Bool} {o : Operand}
    (hhandler : handlerOf i = .accOp op f o) (hcategory : op.category = .arithmetic) (s : State) :
    ArithmeticResult i o s (f s.acc (o.value s) (s.flag .c)).1 (f s.acc (o.value s) (s.flag .c)).1
      (halfCarryOf op s.acc (o.value s) (f s.acc (o.value s) (s.flag .c)).1 (s.flag .c))
      (f s.acc (o.value s) (s.flag .c)).2 := by
  have htwo := twoOperand_of_arithmetic hcategory
  have hexec := exec_eq i s
  rw [hhandler] at hexec
  refine ⟨_, hexec, ?_, flagsAre_of_arithmeticMask ?_, regsStepped_of_regs ?_, memKept_of_mem ?_⟩
  · apply settled_congr <;> simp [Handler.run, flagsUpdated_eq, State.argFor, htwo]
  · simp [Handler.run, flagsUpdated_eq, State.argFor, htwo, flagsAfter, hcategory, overflowOf, zeroOf, negativeOf]
  · simp [Handler.run, flagsUpdated_eq]
  · simp [Handler.run, flagsUpdated_eq]

/-- Settles O38: `mul8` and `div8` report nothing and MUL and DIV have no half-carry, so A and C are false (D24). -/
theorem mulAndDivResults : Obligations.MulAndDivResults := by
  refine ⟨⟨⟨fun m r => ?_, fun a => ?_, fun k => ?_⟩, fun _ => rfl, fun _ => rfl, fun _ => rfl⟩,
    ⟨fun m r => ?_, fun a => ?_, fun k => ?_⟩, fun _ => rfl, fun _ => rfl, fun _ => rfl⟩
  · exact arithmeticResult_of_accOp (i := .mulRg m r) rfl rfl
  · exact arithmeticResult_of_accOp (i := .mulMd a) rfl rfl
  · exact arithmeticResult_of_accOp (i := .mulIm k) rfl rfl
  · exact arithmeticResult_of_accOp (i := .divRg m r) rfl rfl
  · exact arithmeticResult_of_accOp (i := .divMd a) rfl rfl
  · exact arithmeticResult_of_accOp (i := .divIm k) rfl rfl

end Sys2Proof.Proofs
end

section
/-! PROOFS. The place, the value and the pointer step of the six operand forms (42_operands.md R201 to R206, R209). -/

namespace Sys2Proof.Proofs

open Sys2Proof.Machine

/-- An operand that lies in a cell has the value that cell had before the pointer step, which writes no memory. -/
theorem value_of_openLoc_mem {o : Operand} {s : State} {x : Addr} (h : o.openLoc s = .mem x) :
    o.value s = s.memRead x := by
  rw [Operand.value, h]
  exact stepBefore_memRead o s x

/-- `@-Rn` names the cell at the decremented pointer (D13), whose offset wraps inside the data page (D5). -/
theorem openLoc_preDec (r : RegNum) (s : State) :
    (Operand.rg .preDec r).openLoc s = .mem (ea s.ds (s.reg r - 1)) := by
  simp [Operand.openLoc, Operand.stepBefore, Operand.loc]

/-- `@Rn+` leaves its pointer one more, wrapping at 0xFF (R203, D5). -/
theorem step_reg_postInc (r q : RegNum) (s : State) :
    ((Operand.rg .postInc r).stepAfter ((Operand.rg .postInc r).stepBefore s)).reg q =
      if q = r then s.reg r + 1 else s.reg q :=
  reg_setReg s r q (s.reg r + 1)

/-- `@-Rn` leaves its pointer one less, wrapping at 0x00 (R204, D5). -/
theorem step_reg_preDec (r q : RegNum) (s : State) :
    ((Operand.rg .preDec r).stepAfter ((Operand.rg .preDec r).stepBefore s)).reg q =
      if q = r then s.reg r - 1 else s.reg q :=
  reg_setReg s r q (s.reg r - 1)

/-- Settles O25: only `@Rn+` and `@-Rn` step a register, and only `@-Rn` does so before the place is fixed. -/
theorem operandFormsNameTheirPlace : Obligations.OperandFormsNameTheirPlace := by
  intro s r q a k
  refine ⟨?direct, ?indirect, ?postInc, ?preDec, ?memoryDirect, ?immediate⟩
  case direct => exact ⟨rfl, rfl, rfl⟩
  case indirect => exact ⟨rfl, value_of_openLoc_mem rfl, rfl⟩
  case postInc => exact ⟨rfl, value_of_openLoc_mem rfl, step_reg_postInc r q s⟩
  case preDec => exact ⟨openLoc_preDec r s, value_of_openLoc_mem (openLoc_preDec r s), step_reg_preDec r q s⟩
  case memoryDirect => exact ⟨rfl, value_of_openLoc_mem rfl, rfl⟩
  case immediate => exact ⟨rfl, rfl, rfl⟩

end Sys2Proof.Proofs
end

section
/-! PROOFS. The moves and the ALU instructions with an operand (43_alu_move.md): one rule per handler shape, and the numbers
their Word operations give. -/

namespace Sys2Proof.Proofs

open Sys2Proof.Machine

/-! ## The forms of an instruction -/

theorem runs_of_handler {i : Instr} {k : Handler} (hk : handlerOf i = k) {s : State} {P : State → Prop}
    (hP : P (k.run s)) : Runs i s P :=
  ⟨k.run s, hk ▸ exec_eq i s, hP⟩

/-- The six forms of an instruction have one handler shape, so what that shape does with any operand holds of each. -/
theorem sixForms_of_handler {rg : Mode → RegNum → Instr} {md im : Word → Instr} {P : Instr → Operand → Prop}
    (k : Operand → Handler) (hrg : ∀ m r, handlerOf (rg m r) = k (.rg m r)) (hmd : ∀ a, handlerOf (md a) = k (.md a))
    (him : ∀ c, handlerOf (im c) = k (.im c)) (h : ∀ i o, handlerOf i = k o → P i o) : SixForms rg md im P :=
  ⟨fun m r => h _ _ (hrg m r), fun a => h _ _ (hmd a), fun c => h _ _ (him c)⟩

theorem fiveForms_of_handler {rg : Mode → RegNum → Instr} {md : Word → Instr} {P : Instr → Operand → Prop}
    (k : Operand → Handler) (hrg : ∀ m r, handlerOf (rg m r) = k (.rg m r)) (hmd : ∀ a, handlerOf (md a) = k (.md a))
    (h : ∀ i o, handlerOf i = k o → P i o) : FiveForms rg md P :=
  ⟨fun m r => h _ _ (hrg m r), fun a => h _ _ (hmd a)⟩

/-! ## Writing the operand -/

/-- A handler whose registers are those of a write-back leaves `v` in the operand, if it is a register. -/
theorem operandReg_of_writeBack {o : Operand} {v : Word} {s u t : State} (hu : u.regs = (o.stepBefore s).regs)
    (ht : t.regs = (o.writeBack s v u).regs) : OperandReg o v s t := fun q =>
  (reg_congr ht q).trans (writeBack_reg o s u v (fun r => reg_congr hu r) q)

/-- A handler whose memory is that of a write-back leaves `v` in the operand, if it is a cell. -/
theorem operandCell_of_writeBack {o : Operand} {v : Word} {s u t : State} (hu : u.mem = s.mem)
    (ht : t.mem = (o.writeBack s v u).mem) : OperandCell o v s t := fun y => by
  rw [memRead_congr ht, writeBack_memRead, memRead_congr hu]

/-! ## Moves -/

/-- Settles O28: MOV writes ACC back to the place its operand names, without reading it (R208, R220). -/
theorem movStoresAcc : Obligations.MovStoresAcc := by
  refine ⟨fiveForms_of_handler .storeAcc (fun _ _ => rfl) (fun _ => rfl) fun i o hk s => runs_of_handler hk ⟨?_, ?_, ?_⟩,
    fun _ => rfl, fun _ => rfl, fun _ => ⟨_, rfl⟩⟩
  · apply settled_congr <;> simp [Handler.run, storeAcc, Operand.store]
  · exact operandReg_of_writeBack (u := o.stepBefore s) rfl rfl
  · exact operandCell_of_writeBack (stepBefore_mem o s) rfl

/-- PUSH stores the operand's value below the top of the stack: reading the operand moves neither SS nor SPL. -/
theorem memStored_pushOperand (o : Operand) (s : State) :
    MemStored (ea s.ss (s.spl - 1)) (o.value s) s (pushOperand o s) := fun y => by
  have hpush := memStored_pushDl (o.load s) y
  rwa [load_ss, load_spl, load_dl, memRead_congr (load_mem o s)] at hpush

/-- Settles O29. -/
theorem pushStoresTheOperandOnTheStack : Obligations.PushStoresTheOperandOnTheStack := by
  refine ⟨sixForms_of_handler .pushOperand (fun _ _ => rfl) (fun _ => rfl) (fun _ => rfl) fun i o hk s =>
    runs_of_handler hk ⟨?_, ?_, memStored_pushOperand o s⟩, fun w hw => ?_, fun _ => rfl, fun _ => rfl⟩
  · apply settled_congr <;> simp [Handler.run, pushOperand, pushDl_eq]
  · exact regsStepped_of_regs (by simp [Handler.run, pushOperand, pushDl_eq])
  · show Except.ok (if w.getLsbD 7 then Instr.popRg _ _ else Instr.pushRg _ _) = _
    rw [if_neg (Bool.eq_false_iff.mp hw)]

/-- Settles O32: the port is the operand's value, read before ACC takes its place in DL (D23). -/
theorem outxWritesAccToThePort : Obligations.OutxWritesAccToThePort := by
  refine ⟨sixForms_of_handler .writePortOperand (fun _ _ => rfl) (fun _ => rfl) (fun _ => rfl) fun i o hk s =>
    runs_of_handler hk ⟨?_, ?_, ?_⟩, fun _ => rfl, fun _ => rfl, fun _ => rfl⟩
  · apply settled_congr <;> simp [Handler.run, writePortOperand, State.alPort]
  · exact regsStepped_of_regs (load_regs o s)
  · exact memKept_of_mem (load_mem o s)

/-- Settles O33. -/
theorem rdLoadsAcc : Obligations.RdLoadsAcc := by
  refine ⟨sixForms_of_handler .loadAcc (fun _ _ => rfl) (fun _ => rfl) (fun _ => rfl) fun i o hk s =>
    runs_of_handler hk ⟨?_, ?_, ?_⟩, fun _ => rfl, fun _ => rfl, fun _ => rfl⟩
  · apply settled_congr <;> simp [Handler.run, loadAcc]
  · exact regsStepped_of_regs (load_regs o s)
  · exact memKept_of_mem (load_mem o s)

/-- XCH writes ACC back to the operand and takes the value the operand had (R237). -/
theorem exchangeAcc_eq (o : Operand) (s : State) :
    exchangeAcc o s = { o.writeBack s s.acc (o.fetchForUpdate s) with acc := o.value s } := by
  simp [exchangeAcc]

/-- Settles O34. -/
theorem xchSwapsAccAndOperand : Obligations.XchSwapsAccAndOperand := by
  refine ⟨fun m r s => ⟨exchangeAcc (.rg m r) s, rfl, ?_⟩, fun _ => rfl⟩
  rw [exchangeAcc_eq]
  refine ⟨?_, ?_, ?_⟩
  · apply settled_congr <;> simp
  · exact operandReg_of_writeBack (fetchForUpdate_regs _ s) rfl
  · exact operandCell_of_writeBack (fetchForUpdate_mem _ s) rfl

/-! ## The Word operations as plain numbers -/

/-- A difference below zero wraps at 256, so adding 256 before subtracting keeps it a natural number (R170). -/
theorem ofInt_sub_eq_ofNat {x d : Nat} (hd : d ≤ x + 256) :
    BitVec.ofInt 8 ((x : Int) - d) = BitVec.ofNat 8 (x + 256 - d) := by
  apply BitVec.eq_of_toNat_eq
  rw [BitVec.toNat_ofInt, BitVec.toNat_ofNat]
  omega

theorem sub8_eq (a b : Word) :
    sub8 a b = (BitVec.ofNat 8 (a.toNat + 256 - b.toNat), decide (a.toNat < b.toNat)) := by
  have hb := b.isLt
  rw [sub8, ofInt_sub_eq_ofNat (by omega)]

theorem sbb8_eq (a b : Word) (cin : Bool) :
    sbb8 a b cin =
      (BitVec.ofNat 8 (a.toNat + 256 - b.toNat - cin.toNat), decide (a.toNat < b.toNat + cin.toNat)) := by
  have hb := b.isLt
  have hc := cin.toNat_le
  rw [sbb8, Int.sub_sub, ← Int.natCast_add, ofInt_sub_eq_ofNat (by omega), Nat.sub_sub]

theorem inc8_eq (a : Word) : inc8 a = (BitVec.ofNat 8 (a.toNat + 1), decide (a.toNat = 255)) := by
  have ha := a.isLt
  have hcarry : a.toNat + 1 > 255 ↔ a.toNat = 255 := by omega
  exact Prod.ext rfl (decide_eq_decide.mpr hcarry)

theorem dec8_eq (a : Word) : dec8 a = (BitVec.ofNat 8 (a.toNat + 255), decide (a.toNat = 0)) := by
  have hborrow : a.toNat < 1 ↔ a.toNat = 0 := Nat.lt_one_iff
  rw [dec8, sub8_eq]
  exact Prod.ext rfl (decide_eq_decide.mpr hborrow)

theorem not8_eq (a : Word) : not8 a = (BitVec.ofNat 8 (255 - a.toNat), false) := by
  have hnot : ~~~a = BitVec.ofNat 8 (255 - a.toNat) := by
    apply BitVec.eq_of_toNat_eq
    rw [BitVec.toNat_not, BitVec.toNat_ofNat]
    omega
  rw [not8, hnot]

/-! ## Arithmetic category -/

/-- CMP's shape: the flags of `arithmeticResult_of_accOp`, with ACC kept (R231). -/
theorem arithmeticResult_of_accCompare {i : Instr} {op : AluOp} {f : Word → Word → Bool → Word × Bool} {o : Operand}
    (hhandler : handlerOf i = .accCompare op f o) (hcategory : op.category = .arithmetic) (s : State) :
    ArithmeticResult i o s s.acc (f s.acc (o.value s) (s.flag .c)).1
      (halfCarryOf op s.acc (o.value s) (f s.acc (o.value s) (s.flag .c)).1 (s.flag .c))
      (f s.acc (o.value s) (s.flag .c)).2 := by
  have htwo := twoOperand_of_arithmetic hcategory
  refine runs_of_handler hhandler ⟨?_, flagsAre_of_arithmeticMask ?_, regsStepped_of_regs ?_, memKept_of_mem ?_⟩
  · apply settled_congr <;> simp [Handler.run, flagsUpdated_eq, State.argFor, htwo]
  · simp [Handler.run, flagsUpdated_eq, State.argFor, htwo, flagsAfter, hcategory, overflowOf, zeroOf, negativeOf]
  · exact load_regs o s
  · exact load_mem o s

/-- Settles O35. -/
theorem addResult : Obligations.AddResult :=
  ⟨sixForms_of_handler (.accOp .add fun x v _ => add8 x v) (fun _ _ => rfl) (fun _ => rfl) (fun _ => rfl)
      fun _ _ hk => arithmeticResult_of_accOp hk rfl,
    fun _ => rfl, fun _ => rfl, fun _ => rfl⟩

/-- Settles O36: SUB and CMP compute the same difference; only the shape of the handler tells them apart. -/
theorem subAndCmpResults : Obligations.SubAndCmpResults := by
  refine ⟨⟨sixForms_of_handler (.accOp .sub fun x v _ => sub8 x v) (fun _ _ => rfl) (fun _ => rfl) (fun _ => rfl) ?sub,
      fun _ => rfl, fun _ => rfl, fun _ => rfl⟩,
    sixForms_of_handler (.accCompare .cmp fun x v _ => sub8 x v) (fun _ _ => rfl) (fun _ => rfl) (fun _ => rfl) ?cmp,
    fun _ => rfl, fun _ => rfl, fun _ => rfl⟩
  case sub =>
    intro i o hk s
    have hsub := arithmeticResult_of_accOp hk rfl s
    simp only [sub8_eq] at hsub
    exact hsub
  case cmp =>
    intro i o hk s
    have hcmp := arithmeticResult_of_accCompare hk rfl s
    simp only [sub8_eq] at hcmp
    exact hcmp

/-- Settles O37: the carry-in enters `adc8`, `sbb8` and the half-carry, and O is computed without it (D35). -/
theorem adcAndSubbResults : Obligations.AdcAndSubbResults := by
  refine ⟨⟨sixForms_of_handler (.accOp .adc adc8) (fun _ _ => rfl) (fun _ => rfl) (fun _ => rfl) fun _ _ hk =>
      arithmeticResult_of_accOp hk rfl, fun _ => rfl, fun _ => rfl, fun _ => rfl⟩, fun m r s => ?subb, fun _ => rfl⟩
  case subb =>
    have hsubb := arithmeticResult_of_accOp (i := .subbRg m r) rfl rfl s
    rw [sbb8_eq] at hsubb
    exact hsubb

/-! ## Logical category -/

/-- The logical mask writes Z and N, and forces O, A and C to false (R188). -/
theorem flagsAre_of_logical {op : AluOp} (hcategory : op.category = .logical) {s t : State} {pre arg res : Word}
    {rep cin : Bool} (h : t.flags = flagsAfter op pre arg res rep cin s.flags) :
    FlagsAre (decide (res = 0)) (res.getLsbD 7) false false false s t := by
  simp [FlagsAre, State.flag, h, flagsAfter, hcategory, applyMask, zeroOf, negativeOf]

/-- A two-operand update computes its flags from ACC and the operand as they were before the instruction (R180, R190). -/
theorem run_accOp_flags (op : AluOp) (h : op.twoOperand = true) (f : Word → Word → Bool → Word × Bool) (o : Operand)
    (s : State) :
    ((Handler.accOp op f o).run s).flags =
      flagsAfter op s.acc (o.value s) (f s.acc (o.value s) (s.flag .c)).1 (f s.acc (o.value s) (s.flag .c)).2
        (s.flag .c) s.flags := by
  simp [Handler.run, flagsUpdated_eq, State.argFor, h]

/-- An instruction of the shape `ACC <- f(ACC, operand)` in the logical category (R180, R188). -/
theorem logicalResult_of_accOp {i : Instr} {op : AluOp} {f : Word → Word → Bool → Word × Bool} {o : Operand}
    (hhandler : handlerOf i = .accOp op f o) (hcategory : op.category = .logical) (htwo : op.twoOperand = true)
    (s : State) : LogicalResult i o s (f s.acc (o.value s) (s.flag .c)).1 := by
  refine runs_of_handler hhandler ⟨?_, flagsAre_of_logical hcategory (run_accOp_flags op htwo f o s),
    regsStepped_of_regs (load_regs o s), memKept_of_mem (load_mem o s)⟩
  apply settled_congr <;> simp [Handler.run, flagsUpdated_eq, State.argFor, htwo]

/-- Settles O39. -/
theorem logicResults : Obligations.LogicResults := by
  refine ⟨⟨sixForms_of_handler (.accOp .and fun x v _ => and8 x v) (fun _ _ => rfl) (fun _ => rfl) (fun _ => rfl) ?and,
      fun _ => rfl, fun _ => rfl, fun _ => rfl⟩,
    ⟨sixForms_of_handler (.accOp .or fun x v _ => or8 x v) (fun _ _ => rfl) (fun _ => rfl) (fun _ => rfl) ?or,
      fun _ => rfl, fun _ => rfl, fun _ => rfl⟩,
    sixForms_of_handler (.accOp .xor fun x v _ => xor8 x v) (fun _ _ => rfl) (fun _ => rfl) (fun _ => rfl) ?xor,
    fun _ => rfl, fun _ => rfl, fun _ => rfl⟩
  case and => exact fun _ _ hk => logicalResult_of_accOp hk rfl rfl
  case or => exact fun _ _ hk => logicalResult_of_accOp hk rfl rfl
  case xor => exact fun _ _ hk => logicalResult_of_accOp hk rfl rfl

/-! ## In place on the operand -/

/-- The increment/adjust mask writes Z, N, A and C, and keeps O (R189). -/
theorem flagsAre_of_incAdj {op : AluOp} (hcategory : op.category = .incAdj) {s t : State} {pre arg res : Word}
    {rep cin : Bool} (h : t.flags = flagsAfter op pre arg res rep cin s.flags) :
    FlagsAre (decide (res = 0)) (res.getLsbD 7) (s.flag .o) (halfCarryOf op pre arg res cin) rep s t := by
  simp [FlagsAre, State.flag, h, flagsAfter, hcategory, applyMask, zeroOf, negativeOf]

/-- A one-operand update computes its flags from the operand's old value, with ARG zero (R180, R190). -/
theorem run_operandOp_flags (op : AluOp) (h : op.twoOperand = false) (f : Word → Word × Bool) (o : Operand)
    (s : State) :
    ((Handler.operandOp op h f o).run s).flags =
      flagsAfter op (o.value s) 0x00 (f (o.value s)).1 (f (o.value s)).2 (s.flag .c) s.flags := by
  simp [Handler.run, flagsUpdated_eq, State.argFor, h]

/-- An instruction of the shape `operand <- f(operand)`: whatever flags its category leaves, the operand holds the result
and the rest of the state is kept (R180, R190). -/
theorem inPlaceResult_of_operandOp {i : Instr} {op : AluOp} {h : op.twoOperand = false} {f : Word → Word × Bool}
    {o : Operand} (hhandler : handlerOf i = .operandOp op h f o) {s : State} {ov a c : Bool}
    (hflags : FlagsAre (decide ((f (o.value s)).1 = 0)) ((f (o.value s)).1.getLsbD 7) ov a c s
      ((Handler.operandOp op h f o).run s)) :
    InPlaceResult i o s (f (o.value s)).1 ov a c := by
  refine runs_of_handler hhandler ⟨?_, hflags, ?_, ?_⟩
  · apply settled_congr <;> simp [Handler.run, flagsUpdated_eq, State.argFor, h]
  · exact operandReg_of_writeBack (u := (o.fetchForUpdate s).snapPre (o.value s)) (fetchForUpdate_regs o s) rfl
  · exact operandCell_of_writeBack (u := (o.fetchForUpdate s).snapPre (o.value s)) (fetchForUpdate_mem o s) rfl

theorem inPlaceResult_of_logical {i : Instr} {op : AluOp} {h : op.twoOperand = false} {f : Word → Word × Bool}
    {o : Operand} (hhandler : handlerOf i = .operandOp op h f o) (hcategory : op.category = .logical) (s : State) :
    InPlaceResult i o s (f (o.value s)).1 false false false :=
  inPlaceResult_of_operandOp hhandler (flagsAre_of_logical hcategory (run_operandOp_flags op h f o s))

theorem inPlaceResult_of_incAdj {i : Instr} {op : AluOp} {h : op.twoOperand = false} {f : Word → Word × Bool}
    {o : Operand} (hhandler : handlerOf i = .operandOp op h f o) (hcategory : op.category = .incAdj) (s : State) :
    InPlaceResult i o s (f (o.value s)).1 (s.flag .o)
      (halfCarryOf op (o.value s) 0x00 (f (o.value s)).1 (s.flag .c)) (f (o.value s)).2 :=
  inPlaceResult_of_operandOp hhandler (flagsAre_of_incAdj hcategory (run_operandOp_flags op h f o s))

/-- Settles O40: the complement of a Word is its distance from 255 (R175, D25). -/
theorem notResult : Obligations.NotResult := by
  refine ⟨fiveForms_of_handler (.operandOp .not rfl not8) (fun _ _ => rfl) (fun _ => rfl) fun i o hk s => ?_,
    fun _ => rfl, fun _ => rfl, fun _ => ⟨_, rfl⟩⟩
  have hnot := inPlaceResult_of_logical hk rfl s
  rwa [not8_eq] at hnot

/-- Settles O41: A and C are conditions on the old value, and the increment/adjust mask leaves O out. -/
theorem incDecResults : Obligations.IncDecResults := by
  refine ⟨⟨fiveForms_of_handler (.operandOp .inc rfl inc8) (fun _ _ => rfl) (fun _ => rfl) ?inc,
      fun _ => rfl, fun _ => rfl, fun _ => ⟨_, rfl⟩⟩,
    fiveForms_of_handler (.operandOp .dec rfl dec8) (fun _ _ => rfl) (fun _ => rfl) ?dec,
    fun _ => rfl, fun _ => rfl, fun _ => ⟨_, rfl⟩⟩
  case inc =>
    intro i o hk s
    have hinc := inPlaceResult_of_incAdj hk rfl s
    rw [inc8_eq] at hinc
    exact hinc
  case dec =>
    intro i o hk s
    have hdec := inPlaceResult_of_incAdj hk rfl s
    rw [dec8_eq] at hdec
    exact hdec

end Sys2Proof.Proofs
end

section
/-! PROOFS. Control transfer (44_control.md): the jumps, DJRNZ, INT, and the returns RET and IRET, which take back
CALL and an entry because their pops find the Words that those pushed. -/

namespace Sys2Proof.Proofs

open Sys2Proof.Machine

/-! ## Jumps -/

/-- A jump writes PCL, and that only if its condition holds of the flags (R250, R253 to R260). -/
theorem registerOnly_of_jump {i : Instr} {cond : (Flag → Bool) → Bool} {t : Word}
    (hhandler : handlerOf i = .jump cond t) (s : State) :
    RegisterOnly i s (if cond s.flag then { s with pcl := t } else s) := by
  refine runs_of_handler hhandler ?_
  rw [Handler.run, jumpIf_eq]
  cases cond s.flag with
  | true => exact ⟨rfl, memKept_of_mem rfl⟩
  | false => exact ⟨rfl, memKept_of_mem rfl⟩

/-- Settles O43. -/
theorem jumpsLoadPclOnTheirCondition : Obligations.JumpsLoadPclOnTheirCondition :=
  ⟨fun t s =>
    ⟨registerOnly_of_jump (i := .jmp t) rfl s, registerOnly_of_jump (i := .jz t) rfl s,
      registerOnly_of_jump (i := .jnz t) rfl s, registerOnly_of_jump (i := .jc t) rfl s,
      registerOnly_of_jump (i := .jnc t) rfl s, registerOnly_of_jump (i := .jn t) rfl s,
      registerOnly_of_jump (i := .jnn t) rfl s, registerOnly_of_jump (i := .jo t) rfl s,
      registerOnly_of_jump (i := .jno t) rfl s⟩,
    fun _ => rfl, fun _ => rfl, fun _ => rfl, fun _ => rfl, fun _ => rfl, fun _ => rfl, fun _ => rfl, fun _ => rfl,
    fun _ => rfl⟩

/-! ## DJRNZ -/

/-- The report of the decrement is dropped, so the register step is a subtraction of Words (R262). -/
theorem decrementRegister_eq_sub (r : RegNum) (s : State) :
    decrementRegister r s = ({ s with dl := s.reg r - 1 } : State).setReg r (s.reg r - 1) := by
  rw [decrementRegister_eq, dec8, sub8_fst]

/-- DJRNZ writes its register and PCL, and DL as scratch; the register became zero exactly when it held 1 (R262). -/
theorem run_djrnz_eq (r : RegNum) (t : Word) (s : State) :
    (Handler.djrnz r t).run s =
      ({ s with
          pcl := if s.reg r = 1 then s.pcl else t
          dl := if s.reg r = 1 then 0x00 else t } : State).setReg r (s.reg r - 1) := by
  rw [Handler.run, decrementRegister_eq_sub, jumpIf_eq, reg_setReg_same]
  by_cases hone : s.reg r = 1#8
  · simp [hone, State.setReg]
  · have hjumps : s.reg r - 1#8 ≠ 0#8 := sub_ne_zero.mpr hone
    simp [hone, hjumps, State.setReg]

/-- The code of DJRNZ adds the register number to `0x10`, which is CR1 of format DJ (R110, D15). -/
theorem djWord_eq (r : RegNum) : djWord r = 0x10 + r.setWidth 8 := by
  revert r
  decide

/-- Settles O44. -/
theorem djrnzDecrementsAndBranches : Obligations.DjrnzDecrementsAndBranches := by
  refine ⟨fun r t s => ⟨_, exec_eq _ s, ?_⟩, fun r t => djWord_eq r ▸ decode_encode (.djrnz r t)⟩
  rw [handlerOf, run_djrnz_eq]
  exact ⟨rfl, fun q => reg_setReg .., memKept_of_mem rfl⟩

/-! ## CALL and RET -/

/-- Settles O47: RET reads the cell CALL pushed in, and its increment of SPL undoes CALL's decrement modulo 256 (R26). -/
theorem retUndoesCall : Obligations.RetUndoesCall := by
  intro a s
  obtain ⟨t, hcall, hentered, hstored⟩ := callPushesTheReturnOffset.1 a s
  have htss : t.ss = s.ss := (congrArg State.ss hentered :)
  have htspl : t.spl = s.spl - 1 := (congrArg State.spl hentered :)
  refine ⟨t, hcall, fun u hss hspl hcell => ?_⟩
  obtain ⟨v, hret, hleft, -⟩ := retPopsPcl.1 u
  refine ⟨v, hret, ?pcl, ?spl, (congrArg State.cs hleft :)⟩
  case pcl =>
    calc v.pcl = u.memRead (ea u.ss u.spl) := congrArg State.pcl hleft
      _ = t.memRead (ea s.ss (s.spl - 1)) := by rw [hss, hspl, hcell, htss, htspl]
      _ = s.pcl := (hstored _).trans (if_pos rfl)
  case spl =>
    calc v.spl = u.spl + 1 := congrArg State.spl hleft
      _ = s.spl := by rw [hspl, htspl, BitVec.sub_add_cancel]

/-! ## Entries through a vector -/

theorem saveForEntry_dev (s : State) : s.saveForEntry.dev = s.dev := by
  rw [saveForEntry_eq]
  rfl

/-- The pushes of an entry (R341): the status word below PCL. -/
theorem entryPushed_saveForEntry (s : State) : EntryPushed s s.saveForEntry := fun x => by
  rw [saveForEntry_eq, memRead_memWrite, memRead_memWrite, BitVec.sub_sub]
  rfl

theorem vector_memRead (id : Nat) (s : State) (x : Addr) : (s.vector id).memRead x = s.memRead x := by
  rw [vector_eq]
  rfl

/-- The second word of a vector lies one past the first, also where the offset wraps (R343, D31). -/
theorem vectorOffset_one (id : Nat) : vectorOffset id 1 = BitVec.ofNat 8 (id * 2) + 1 := BitVec.ofNat_add ..

/-- The pushes and then a vector are an entry, whatever was asked of the device side between the two (R341, R343). -/
theorem entered_vector (id : Nat) (d : DeviceSide) (s : State) :
    Entered id d s (({ s.saveForEntry with dev := d } : State).vector id) := by
  refine ⟨?settled, fun f => ?flag, fun x => (vector_memRead _ _ x).trans (entryPushed_saveForEntry s x)⟩
  case settled =>
    simp only [vector_memRead, ← vectorOffset_one]
    rw [vector_eq, saveForEntry_eq, BitVec.sub_sub]
    rfl
  case flag =>
    rw [vector_eq, saveForEntry_eq]
    exact flagOf_withFlag .i f false s.flags

/-- INT makes no call of the device side (R252, D30). -/
theorem entered_softwareInterrupt (n : Word) (s : State) : Entered n.toNat s.dev s (s.softwareInterrupt n) := by
  rw [← saveForEntry_dev s]
  exact entered_vector n.toNat s.saveForEntry.dev s

/-- An acceptance enters the vector the device side answers to its one call, made after the pushes (R341). -/
theorem entered_accept (s : State) : Entered s.dev.ackAnswer s.dev.askAck s s.accept := by
  rw [← saveForEntry_dev s]
  exact entered_vector s.saveForEntry.dev.ackAnswer s.saveForEntry.dev.askAck s

/-- Settles O48. -/
theorem intEntersThroughItsVector : Obligations.IntEntersThroughItsVector :=
  ⟨fun n s => ⟨s.softwareInterrupt n, rfl, entered_softwareInterrupt n s⟩, fun _ => rfl⟩

/-! ## IRET -/

/-- The two pushes of an entry go to different cells, so the status word leaves the pushed PCL in place (R341). -/
theorem memRead_pcl_of_entryPushed {s t : State} (h : EntryPushed s t) : t.memRead (ea s.ss (s.spl - 1)) = s.pcl := by
  have hne : ea s.ss (s.spl - 1) ≠ ea s.ss (s.spl - 2) := fun heq => by
    have hoffset := (ea_inj.mp heq).2
    bv_omega
  rw [h, if_neg hne, if_pos rfl]

theorem memRead_status_of_entryPushed {s t : State} (h : EntryPushed s t) :
    t.memRead (ea s.ss (s.spl - 2)) = statusWord s.flags s.cs :=
  (h _).trans (if_pos rfl)

/-- IRET goes back from any entry: it pops the status word and PCL where they were pushed, and its two increments of SPL
undo the two decrements modulo 256 (R26, R283). -/
theorem returnsTo_of_entered {id : Nat} {d : DeviceSide} {s t : State} (h : Entered id d s t) : ReturnsTo s t := by
  obtain ⟨hentered, -, hpushed⟩ := h
  have htss : t.ss = s.ss := (congrArg State.ss hentered :)
  have htspl : t.spl = s.spl - 2 := (congrArg State.spl hentered :)
  have hsecond : s.spl - 2 + 1 = s.spl - 1 := by bv_omega
  have hback : s.spl - 1 + 1 = s.spl := BitVec.sub_add_cancel ..
  intro u hss hspl hstatus hpcl
  rw [htss, htspl, memRead_status_of_entryPushed hpushed] at hstatus
  rw [htss, htspl, hsecond, memRead_pcl_of_entryPushed hpushed] at hpcl
  refine ⟨u.interruptReturn, rfl, ?_⟩
  rw [interruptReturn_eq, hss, hspl, htss, htspl, hsecond, hback, hstatus, hpcl]
  exact ⟨rfl, statusWord_cs s.flags s.cs, rfl, restoreFlags_statusWord s.flags u.flags s.cs⟩

/-- Settles O50. -/
theorem iretUndoesTheEntry : Obligations.IretUndoesTheEntry :=
  ⟨fun n s => ⟨s.softwareInterrupt n, rfl, returnsTo_of_entered (entered_softwareInterrupt n s)⟩,
    fun s => returnsTo_of_entered (entered_accept s)⟩

end Sys2Proof.Proofs
end

section
/-! PROOFS. The non-addressed instructions (45_non_addressed.md): those that do nothing, the transfers of flags, the
return IRET, and the decimal adjustments of ACC. -/

namespace Sys2Proof.Proofs

open Sys2Proof.Machine

/-! ## Nothing -/

theorem registerOnly_of_idle {i : Instr} (hhandler : handlerOf i = .idle) (s : State) : RegisterOnly i s s :=
  runs_of_handler hhandler ⟨rfl, fun _ => rfl⟩

/-- Settles O51: INP and OUTP have the handler of NOP (D20). -/
theorem nopInpOutpDoNothing : Obligations.NopInpOutpDoNothing :=
  ⟨fun s => ⟨registerOnly_of_idle (i := .nop) rfl s, registerOnly_of_idle (i := .inp) rfl s,
      registerOnly_of_idle (i := .outp) rfl s⟩,
    codeNa_of 0x01 .nop rfl (by decide), codeNa_of 0x0F .inp rfl (by decide), codeNa_of 0x10 .outp rfl (by decide)⟩

/-! ## Flags -/

/-- EI and DI differ in the value they give flag I (R284, R296). -/
theorem runs_of_setI {i : Instr} {v : Bool} (hhandler : handlerOf i = .setI v) (s : State) :
    Runs i s fun t =>
      t.settled = { s with flags := t.flags : State }.settled ∧ (∀ f, t.flag f = if f = .i then v else s.flag f) ∧
        MemKept s t :=
  runs_of_handler hhandler ⟨rfl, fun f => flag_setFlag s .i f v, memKept_of_mem rfl⟩

/-- Settles O52. -/
theorem eiDiWriteOnlyI : Obligations.EiDiWriteOnlyI :=
  ⟨fun s => ⟨runs_of_setI (i := .ei) rfl s, runs_of_setI (i := .di) rfl s⟩, codeNa_of 0x04 .ei rfl (by decide),
    codeNa_of 0x05 .di rfl (by decide)⟩

/-- Settles O55: the byte is moved whole, so U6 and U7 move with it (D19). -/
theorem ldfStfTransferAllFlags : Obligations.LdfStfTransferAllFlags :=
  ⟨fun s =>
      ⟨⟨{ s with acc := s.flags }, rfl, rfl, fun _ => rfl⟩, ⟨{ s with flags := s.acc }, rfl, rfl, fun _ => rfl⟩⟩,
    codeNa_of 0x0D .ldf rfl (by decide), codeNa_of 0x0E .stf rfl (by decide)⟩

/-! ## IRET -/

/-- IRET takes an active flag from its bit of the status word: the mask leaves nothing of the old flags there (R283). -/
theorem flagOf_restoreFlags_of_active (status w : Word) {f : Flag} (h : ¬ (f = .u6 ∨ f = .u7)) :
    flagOf f (restoreFlags status w) = status.getLsbD (f.pos + 2) := by
  have hmask : (0xC0#8).getLsbD f.pos = false := by revert h; cases f <;> decide
  rw [flagOf, restoreFlags, BitVec.getLsbD_or, BitVec.getLsbD_and, BitVec.getLsbD_ushiftRight, Nat.add_comm 2]
  simp [hmask]

/-- Settles O49: the two pops read the cells at SPL and one past it, and the two increments of SPL are one step of two,
also modulo 256 (R26). -/
theorem iretRestoresFlagsSegmentAndPcl : Obligations.IretRestoresFlagsSegmentAndPcl := by
  refine ⟨fun s => ⟨s.interruptReturn, rfl, ?_⟩, codeNa_of 0x03 .iret rfl (by decide)⟩
  rw [interruptReturn_eq, BitVec.add_assoc]
  refine ⟨rfl, fun f => ?flag, memKept_of_mem rfl⟩
  case flag =>
    split
    next hkept => exact flagOf_restoreFlags _ s.flags hkept
    next hactive => exact flagOf_restoreFlags_of_active _ s.flags hactive

/-! ## The decimal adjustments -/

/-- The adjustment as a number: the two parts sum to at most `0x66`, so nothing is reduced (R290, R291). -/
theorem bcdAdjustment_toNat (x : Word) (a c : Bool) :
    (bcdAdjustment x a c).toNat =
      (if x.toNat % 16 > 9 ∨ a = true then 0x06 else 0) + (if x.toNat > 0x99 ∨ c = true then 0x60 else 0) := by
  have hlow : (x &&& 0x0F).toNat = x.toNat % 16 := by
    rw [BitVec.toNat_and]
    exact Nat.and_two_pow_sub_one_eq_mod x.toNat 4
  simp only [bcdAdjustment, hlow, Bool.or_eq_true, decide_eq_true_eq]
  split_ifs <;> rfl

/-- An instruction of the shape `ACC <- f(ACC)` in the increment/adjust category: the result and C come from `f`, A from
the operation's half-carry rule, and ARG is zero (R180, R189, R190). -/
theorem runs_of_accAdjust {i : Instr} {op : AluOp} {h : op.twoOperand = false}
    {f : (Flag → Bool) → Word → Word × Bool} (hhandler : handlerOf i = .accAdjust op h f)
    (hcategory : op.category = .incAdj) (s : State) :
    Runs i s fun t =>
      t.settled =
          { s with
            acc := (f s.flag s.acc).1, flags := t.flags, dr := t.flags, pre := s.acc, arg := 0x00, preValid := false
            argValid := false : State }.settled ∧
        FlagsAre (decide ((f s.flag s.acc).1 = 0)) ((f s.flag s.acc).1.getLsbD 7) (s.flag .o)
          (halfCarryOf op s.acc 0x00 (f s.flag s.acc).1 (s.flag .c)) (f s.flag s.acc).2 s t ∧
        MemKept s t := by
  refine runs_of_handler hhandler ⟨?_, flagsAre_of_incAdj hcategory ?_, memKept_of_mem rfl⟩
  · apply settled_congr <;> simp [Handler.run, flagsUpdated_eq, State.argFor, h]
  · simp [Handler.run, flagsUpdated_eq, State.argFor, h]

/-- Settles O42: DAA adds the adjustment and DSA subtracts it, and A says whether the low nibble changed (R184; G1). -/
theorem decimalAdjustResults : Obligations.DecimalAdjustResults := by
  intro s
  refine ⟨?daa, ?dsa, codeNa_of 0x0B .daa rfl (by decide), codeNa_of 0x0C .dsa rfl (by decide)⟩
  case daa =>
    have hdaa := runs_of_accAdjust (i := .daa) rfl rfl s
    simp only [add8, bcdAdjustment_toNat] at hdaa
    exact hdaa
  case dsa =>
    have hdsa := runs_of_accAdjust (i := .dsa) rfl rfl s
    simp only [sub8_eq, bcdAdjustment_toNat] at hdsa
    exact hdsa

end Sys2Proof.Proofs
end

section
/-! PROOFS. The bit instructions and the ports (46_bit_port.md): one rule per handler shape, at both values of the bit, and
the codes of the bit instructions from the round trip of the encoding. -/

namespace Sys2Proof.Proofs

open Sys2Proof.Machine

/-! ## The codes of the bit instructions -/

/-- CR1 of formats BM and BP is the sum of the code of bit 0 and the bit index: the sum carries nothing (R112, R118). -/
theorem bitWord_eq_add (op : BitVec 5) (b : BitIdx) : bitWord op b = bitWord op 0 + b.setWidth 8 := by
  revert op b
  decide

/-- An instruction the encoder puts in format BM or BP is decoded at the code of its selecting bits. -/
theorem codeBit_of_encode {i : BitIdx → Word → Instr} (op : BitVec 5) (h : ∀ b w, encode (i b w) = (bitWord op b, w)) :
    CodeBit (bitWord op 0) i := fun b w => by
  have hdecode := decode_encode (i b w)
  rwa [h, bitWord_eq_add] at hdecode

/-! ## Bits of a memory cell -/

/-- SETB and CLRB: the cell is read, one bit of it written, and the Word stored in the same cell (R308). -/
theorem runs_of_writeCellBit {i : Instr} {b : BitIdx} {v : Bool} {a : Word} (hhandler : handlerOf i = .writeCellBit b v a)
    (s : State) :
    Runs i s fun t =>
      t.settled = s.settled ∧ (∀ y, y ≠ ea s.ds a → t.memRead y = s.memRead y) ∧
        ∀ k, (t.memRead (ea s.ds a)).getLsbD k = if k = b.toNat then v else (s.memRead (ea s.ds a)).getLsbD k := by
  refine runs_of_handler hhandler ?_
  rw [Handler.run, writeCellBit_eq]
  refine ⟨rfl, fun y hy => memRead_memWrite_ne _ _ hy, fun k => ?bit⟩
  case bit => rw [memRead_memWrite_same, getLsbD_setBit _ _ _ _ b.isLt]

/-- Settles O56. -/
theorem setbClrbWriteOneBit : Obligations.SetbClrbWriteOneBit :=
  ⟨fun b a s => ⟨runs_of_writeCellBit (i := .setb b a) rfl s, runs_of_writeCellBit (i := .clrb b a) rfl s⟩,
    codeBit_of_encode 0b10001 fun _ _ => rfl, codeBit_of_encode 0b10000 fun _ _ => rfl⟩

/-! ## Skips -/

/-- Two increments of PCL, on a bit that has the value asked for, are one step of two, also modulo 256 (R25, R309). -/
theorem skipIf_beq_eq (bit v : Bool) (s : State) :
    skipIf (bit == v) s = { s with pcl := if bit = v then s.pcl + 2 else s.pcl } := by
  have htwo : s.pcl + 1 + 1 = s.pcl + 2 := BitVec.add_assoc ..
  simp only [skipIf_eq, beq_iff_eq, htwo]

/-- SKBS and SKBC read the cell and store nothing (R312, R313). -/
theorem registerOnly_of_skipOnCell {i : Instr} {b : BitIdx} {v : Bool} {a : Word}
    (hhandler : handlerOf i = .skipOnCell b v a) (s : State) :
    RegisterOnly i s
      { s with pcl := if (s.memRead (ea s.ds a)).getLsbD b.toNat = v then s.pcl + 2 else s.pcl } := by
  refine runs_of_handler hhandler ?_
  rw [Handler.run, skipOnCell, skipIf_beq_eq]
  exact ⟨rfl, memKept_of_mem rfl⟩

/-- Settles O57. -/
theorem skbsSkbcSkipOnTheBit : Obligations.SkbsSkbcSkipOnTheBit :=
  ⟨fun b a s => ⟨registerOnly_of_skipOnCell (i := .skbs b a) rfl s, registerOnly_of_skipOnCell (i := .skbc b a) rfl s⟩,
    codeBit_of_encode 0b10011 fun _ _ => rfl, codeBit_of_encode 0b10010 fun _ _ => rfl⟩

/-! ## Bits of a port -/

/-- The port an access names is the whole address that was put in AL (R144, R154). -/
theorem alPort_eaPort (p : Word) (s : State) : (s.eaPort p).alPort = p := zext_port p

/-- PSETB and PCLRB hand bit and value to the device side, which they do not read (R308, R314, R315). -/
theorem registerOnly_of_writePortBit {i : Instr} {b : BitIdx} {v : Bool} {p : Word}
    (hhandler : handlerOf i = .writePortBit b v p) (s : State) :
    RegisterOnly i s { s with dev := s.dev.record (.writePortBit p b v) } := by
  refine runs_of_handler hhandler ?_
  rw [Handler.run, writePortBit, stPbit_eq, alPort_eaPort]
  exact ⟨rfl, memKept_of_mem rfl⟩

/-- Settles O58. -/
theorem psetbPclrbCallOnce : Obligations.PsetbPclrbCallOnce :=
  ⟨fun b p s =>
      ⟨registerOnly_of_writePortBit (i := .psetb b p) rfl s, registerOnly_of_writePortBit (i := .pclrb b p) rfl s⟩,
    codeBit_of_encode 0b10101 fun _ _ => rfl, codeBit_of_encode 0b10100 fun _ _ => rfl⟩

/-- PSKBS and PSKBC decide on the answer to the one call they make (R316, R317). -/
theorem registerOnly_of_skipOnPort {i : Instr} {b : BitIdx} {v : Bool} {p : Word}
    (hhandler : handlerOf i = .skipOnPort b v p) (s : State) :
    RegisterOnly i s
      { s with dev := s.dev.askBit p b, pcl := if s.dev.bitAnswer p b = v then s.pcl + 2 else s.pcl } := by
  refine runs_of_handler hhandler ?_
  rw [Handler.run, skipOnPort, skipIf_beq_eq, State.portBit, ldPbit_eq, alPort_eaPort]
  exact ⟨rfl, memKept_of_mem rfl⟩

/-- Settles O59. -/
theorem pskbsPskbcSkipOnThePortBit : Obligations.PskbsPskbcSkipOnThePortBit :=
  ⟨fun b p s =>
      ⟨rfl, registerOnly_of_skipOnPort (i := .pskbs b p) rfl s, registerOnly_of_skipOnPort (i := .pskbc b p) rfl s⟩,
    codeBit_of_encode 0b10111 fun _ _ => rfl, codeBit_of_encode 0b10110 fun _ _ => rfl⟩

/-! ## IN and OUT -/

/-- IN: the answer goes through DL to ACC (R318). -/
theorem registerOnly_inPort (p : Word) (s : State) :
    RegisterOnly (.inPort p) s { s with acc := s.dev.wordAnswer p, dev := s.dev.askWord p } := by
  refine runs_of_handler (k := .inPort p) rfl ?_
  rw [Handler.run, ldPort_eq, alPort_eaPort]
  exact ⟨rfl, memKept_of_mem rfl⟩

/-- OUT: ACC goes through DL to the port, and taking it to DL leaves the address latch (R319). -/
theorem registerOnly_outPort (p : Word) (s : State) :
    RegisterOnly (.outPort p) s { s with dev := s.dev.record (.writePort p s.acc) } := by
  have hport : (s.eaPort p).accToDl.alPort = p := alPort_eaPort p s
  refine runs_of_handler (k := .outPort p) rfl ?_
  rw [Handler.run, stPort_eq, hport]
  exact ⟨rfl, memKept_of_mem rfl⟩

/-- Settles O60. -/
theorem inOutCallThePortOnce : Obligations.InOutCallThePortOnce :=
  ⟨fun p s => ⟨rfl, registerOnly_inPort p s, registerOnly_outPort p s⟩, fun _ => rfl, fun _ => rfl⟩

end Sys2Proof.Proofs
end

section
/-! PROOFS. The interrupt check and the layout of the status word (60_exceptions.md R340 to R343), and the host's pokes
(70_reset_and_hazards.md R380). -/

namespace Sys2Proof.Proofs

open Sys2Proof.Machine

/-! ## The interrupt check -/

/-- Asking for a pending request touches the device side alone, so the entry is one from the state before the question
(R340, R341). -/
theorem entered_accept_irqPending (s : State) :
    Entered s.dev.askPending.ackAnswer s.dev.askPending.askAck s s.irqPending.accept :=
  entered_accept s.irqPending

/-- Settles O10. -/
theorem interruptCheckAcceptsOnlyWhenEnabled : Obligations.InterruptCheckAcceptsOnlyWhenEnabled := by
  intro s
  unfold State.interruptCheck
  cases hflag : s.flag .i with
  | false => rfl
  | true =>
    cases hpending : s.dev.pendingAnswer with
    | false => rfl
    | true => exact entered_accept_irqPending s

/-! ## The status word -/

/-- The shift by two clears the places CS takes, so the two parts of the status word add without a carry (R342). -/
theorem statusWord_toNat (w : Word) (cs : Seg) : (statusWord w cs).toNat = cs.toNat + 4 * (w.toNat % 64) := by
  have hcs : cs.toNat < 2 ^ 2 := cs.isLt
  have hshift : (w.toNat <<< 2) % 2 ^ 8 = (w.toNat % 64) <<< 2 := by
    rw [Nat.shiftLeft_eq, Nat.shiftLeft_eq]
    omega
  rw [statusWord, BitVec.toNat_or, BitVec.toNat_shiftLeft, BitVec.toNat_setWidth_of_le (by decide), hshift,
    ← Nat.shiftLeft_add_eq_or_of_lt hcs, Nat.shiftLeft_eq]
  omega

theorem getLsbD_statusWord (w : Word) (cs : Seg) {k : Nat} (hk : k < 6) :
    (statusWord w cs).getLsbD (k + 2) = w.getLsbD k := by
  have hlt : k + 2 < 8 := by omega
  rw [statusWord, BitVec.getLsbD_or, BitVec.getLsbD_shiftLeft, BitVec.getLsbD_setWidth,
    BitVec.getLsbD_of_ge cs (k + 2) (Nat.le_add_left 2 k)]
  simp [hlt]

/-- The six active flags are the low six bits of FLAGS (R30, D6). -/
theorem flag_pos_lt_six {f : Flag} (h6 : f ≠ .u6) (h7 : f ≠ .u7) : f.pos < 6 := by
  revert h6 h7
  cases f <;> decide

/-- Settles O27. -/
theorem statusWordHoldsSegmentAndFlags : Obligations.StatusWordHoldsSegmentAndFlags := fun w cs =>
  ⟨statusWord_toNat w cs, fun _ h6 h7 => getLsbD_statusWord w cs (flag_pos_lt_six h6 h7)⟩

/-! ## The host's pokes -/

/-- A poke in range writes its place and reports it (R380). -/
theorem step_poke_of_inRange {p : PokeTarget} {v : Nat} (hplace : p.inRange = none) (hvalue : v < p.bound) (s : State)
    (rest : List (Option HostRequest)) :
    step { s with host := some (.poke p v) :: rest } =
      .next ((({ s with host := rest } : State).pokeWrite p v).call .onStateChanged) := by
  show honour (.poke p v) { s with host := rest } = _
  simp only [honour, State.poke, hplace, if_pos hvalue]

/-- A poke of a place that does not exist, or of a value too wide for its place, changes nothing (R332, R380). -/
theorem step_poke_of_rejected {p : PokeTarget} {v : Nat} (h : p.inRange ≠ none ∨ p.bound ≤ v) (s : State)
    (rest : List (Option HostRequest)) :
    step { s with host := some (.poke p v) :: rest } = .next { s with host := rest } := by
  show honour (.poke p v) { s with host := rest } = _
  cases hplace : p.inRange with
  | some e => simp only [honour, State.poke, hplace]
  | none =>
    have hwide : ¬ v < p.bound := Nat.not_lt.mpr (h.resolve_left fun hne => hne hplace)
    simp only [honour, State.poke, hplace, if_neg hwide]

/-- A place of `n` bits takes every value of `n` bits as it is: it is in range, and cutting it to `n` bits loses
nothing (R380). -/
theorem step_poke_write {n : Nat} {p : PokeTarget} (put : BitVec n → State → State) (hplace : p.inRange = none)
    (hbound : p.bound = 2 ^ n) (hput : ∀ (v : Nat) (t : State), t.pokeWrite p v = put (BitVec.ofNat n v) t)
    (v : BitVec n) (s : State) (rest : List (Option HostRequest)) :
    step { s with host := some (.poke p v.toNat) :: rest } =
      .next ((put v { s with host := rest }).call .onStateChanged) := by
  have hvalue : v.toNat < p.bound := hbound ▸ v.isLt
  rw [step_poke_of_inRange hplace hvalue, hput, BitVec.ofNat_toNat, BitVec.setWidth_eq]

theorem step_poke_memory (x : Addr) (v : Word) (s : State) (rest : List (Option HostRequest)) :
    step { s with host := some (.poke (.memory x.toNat) v.toNat) :: rest } =
      .next ((({ s with host := rest } : State).memWrite x v).call .onStateChanged) := by
  refine step_poke_write (p := .memory x.toNat) (fun w t => t.memWrite x w) (if_pos x.isLt) rfl (fun w t => ?_) v s rest
  rw [State.pokeWrite, BitVec.ofNat_toNat, BitVec.setWidth_eq]

theorem step_poke_reg (r : RegNum) (v : Word) (s : State) (rest : List (Option HostRequest)) :
    step { s with host := some (.poke (.reg r.toNat) v.toNat) :: rest } =
      .next ((({ s with host := rest } : State).setReg r v).call .onStateChanged) := by
  refine step_poke_write (p := .reg r.toNat) (fun w t => t.setReg r w) (if_pos r.isLt) rfl (fun w t => ?_) v s rest
  rw [State.pokeWrite, BitVec.ofNat_toNat, BitVec.setWidth_eq]

theorem inRange_memory_ne_none (x : Nat) : (PokeTarget.memory (1024 + x)).inRange ≠ none := by
  simp [PokeTarget.inRange, memSize]

theorem inRange_reg_ne_none (n : Nat) : (PokeTarget.reg (8 + n)).inRange ≠ none := by
  simp [PokeTarget.inRange]

/-- No place holds more than a Word. -/
theorem bound_le (p : PokeTarget) : p.bound ≤ 256 := by
  cases p <;> simp [PokeTarget.bound]

/-- Settles O14: the named place takes a value in range; a place that does not exist, a value wider than a Word, and a
value wider than a segment register are rejected. -/
theorem hostPokeWritesOnlyInRange : Obligations.HostPokeWritesOnlyInRange := by
  intro s rest
  refine ⟨fun x v => ?memory, fun r v => step_poke_reg r v s rest, fun v => ?words, fun v => ?segments,
    fun x v => ?noCell, fun n v => ?noRegister, fun p v => ?wideWord, fun v => ?wideSegment⟩
  case memory =>
    refine ⟨_, step_poke_memory x v s rest, rfl, fun y => ?_⟩
    rw [call_memRead, memRead_memWrite]
    rfl
  case words =>
    exact ⟨step_poke_write (fun w t => { t with acc := w }) rfl rfl (fun _ _ => rfl) v s rest,
      step_poke_write (fun w t => { t with dr := w }) rfl rfl (fun _ _ => rfl) v s rest,
      step_poke_write (fun w t => { t with flags := w }) rfl rfl (fun _ _ => rfl) v s rest,
      step_poke_write (fun w t => { t with pcl := w }) rfl rfl (fun _ _ => rfl) v s rest,
      step_poke_write (fun w t => { t with spl := w }) rfl rfl (fun _ _ => rfl) v s rest,
      step_poke_write (fun w t => { t with cr0 := w }) rfl rfl (fun _ _ => rfl) v s rest,
      step_poke_write (fun w t => { t with cr1 := w }) rfl rfl (fun _ _ => rfl) v s rest⟩
  case segments =>
    exact ⟨step_poke_write (fun w t => { t with cs := w }) rfl rfl (fun _ _ => rfl) v s rest,
      step_poke_write (fun w t => { t with ds := w }) rfl rfl (fun _ _ => rfl) v s rest,
      step_poke_write (fun w t => { t with ss := w }) rfl rfl (fun _ _ => rfl) v s rest⟩
  case noCell => exact step_poke_of_rejected (.inl (inRange_memory_ne_none x)) s rest
  case noRegister => exact step_poke_of_rejected (.inl (inRange_reg_ne_none n)) s rest
  case wideWord => exact step_poke_of_rejected (.inr ((bound_le p).trans (Nat.le_add_right 256 v))) s rest
  case wideSegment =>
    have hrejected {p : PokeTarget} (hbound : p.bound = 4) :
        step { s with host := some (.poke p (4 + v)) :: rest } = .next { s with host := rest } :=
      step_poke_of_rejected (.inr (hbound.trans_le (Nat.le_add_right 4 v))) s rest
    exact ⟨hrejected rfl, hrejected rfl, hrejected rfl⟩

end Sys2Proof.Proofs
end

section
/-! PROOFS. The decode vectors (95_test_vectors.md section 2), from the round trip and the ignored bits. -/

namespace Sys2Proof.Proofs

/-- Settles O5: each word is the encoding of its instruction but two, `0x19 0x20` (DJ) and `0x0F 0x01` (NA), which differ
from theirs in ignored bits of CR1 alone (30_encoding.md R110, R111). -/
theorem sampleWordsDecode : Obligations.SampleWordsDecode := by
  obtain ⟨-, -, hdj, hna⟩ := ignoredBitsSelectNothing
  have hdjrnz : decode 0x19 0x20 = .ok (.djrnz 1 0x20) := (hdj 1 0x20).trans (decode_encode (.djrnz 1 0x20))
  have hnop : decode 0x0F 0x01 = .ok .nop := (hna 0xF 0x01 (by decide)).trans (decode_encode .nop)
  exact ⟨decode_encode (.popRg .preDec 2), decode_encode (.rdRg .postInc 1), decode_encode (.pushMd 0x80),
    decode_encode (.adcIm 0x01), decode_encode (.jno 0x70), hdjrnz, hnop, decode_encode (.skbc 3 0x40),
    decode_encode (.pclrb 7 0x20), decode_encode (.outPort 0x20)⟩

end Sys2Proof.Proofs
end
